-- ==== Sys2Proof/Word.lean ====
section
/-! DEFINITION. The word and byte types of the block (spec/00_scope.md R7, R8; DATA_W of R6). -/

namespace Sys2Proof

/-- A register of the window: 32 bits, unsigned (R7, R8, R53). -/
abbrev Word := BitVec 32

/-- One byte of a value (R7). -/
abbrev Byte := BitVec 8

end Sys2Proof
end

