-- ==== Sys2Proof/Syntax.lean ====
section
/-! DEFINITION. The commands of spec/30_encoding.md, and the one format of a command word. -/

namespace Sys2Proof

/-- The seven commands, one constructor per row of spec/opcode_table.json (R82). A command word has no
immediate, register-number or mode field (R84), so no constructor has an argument. -/
inductive Instr where
  /-- MONT_MUL: field multiply (spec/40_field.md R100). -/
  | montMul
  /-- FIELD_RED: reduction of a 512-bit value (spec/40_field.md R105). -/
  | fieldRed
  /-- X25519: variable-base scalar multiplication (spec/41_x25519.md R120). -/
  | x25519
  /-- X25519_BASE: fixed-base scalar multiplication (spec/41_x25519.md R124). -/
  | x25519Base
  /-- MD5_INIT: the chaining value becomes the MD5 initial value (spec/42_md5.md R140). -/
  | md5Init
  /-- MD5_BLOCK: compression of one block (spec/42_md5.md R141). -/
  | md5Block
  /-- ZEROIZE: every data register becomes zero (spec/43_system.md R175). -/
  | zeroize
  deriving DecidableEq, Repr

/-- The fields of a word written to CMD: its single format (R80). -/
structure CmdFormat where
  /-- OPC, bits 3:0. -/
  opc : BitVec 4
  /-- RSV, bits 31:4. -/
  rsv : BitVec 28
  deriving DecidableEq, Repr

end Sys2Proof
end

