-- ==== Sys2Proof/Config.lean ====
section
/-! DEFINITION. What this hardware fixes, and what the spec leaves OPEN (spec/00_scope.md R6;
spec/92_eei_decisions.md, "Named parameters left OPEN"). An opaque constant has no body: no proof can see its value. -/

namespace Sys2Proof

namespace Config

/-- The field prime P = 2^255 - 19 (R6). -/
def prime : Nat := 2 ^ 255 - 19

/-- The ladder constant A24 (R6, R122). -/
def a24 : Nat := 121665

/-- The base point's u-coordinate U_BASE (R6, R124). -/
def uBase : Nat := 9

/-- ID_VALUE (R6, R24). -/
def idValue : Word := 0x57430001#32

/-- The number of the 4096-byte page the window stands in: OPEN, a platform parameter (R6, R50). -/
opaque windowPage : Nat

/-- P_BASE, the host address of offset 0x000, aligned to 4096 (R50; 92_eei_decisions.md, the OPEN table). -/
def windowBase : Nat := 4096 * windowPage

/-- LAT_op less one, for each opcode: OPEN (R6, R225). -/
opaque latencyLessOne : Instr → Nat

/-- LAT_op: the clock cycles from the accept edge to the completion edge, at least 1, a constant that does not
depend on data (R6, R225, R226). -/
def latency (i : Instr) : Nat := latencyLessOne i + 1

end Config

/-- The units' working registers (spec/10_state.md R35). The widths are DEDUCED (log entry 4). -/
structure Working where
  /-- The ladder's x1, x2, z2, x3, z3 (R122): field elements, below 2^255. -/
  x1 : BitVec 255
  x2 : BitVec 255
  z2 : BitVec 255
  x3 : BitVec 255
  z3 : BitVec 255
  /-- The ladder's swap bit (R122). -/
  swap : Bool
  /-- The unit's copy of the clamped scalar (R35, R121). -/
  scalar : BitVec 256
  /-- The MD5 round registers a, b, c, d (R147). -/
  roundA : Word
  roundB : Word
  roundC : Word
  roundD : Word
  /-- The multiplier's partial products (R35); the product is an exact 512-bit value (R100). -/
  product : BitVec 512
  deriving DecidableEq, Repr, Inhabited

/-- Every working register zero: what reset and each completion leave (R36, R39). -/
def Working.zero : Working :=
  { x1 := 0, x2 := 0, z2 := 0, x3 := 0, z3 := 0, swap := false, scalar := 0
    roundA := 0, roundB := 0, roundC := 0, roundD := 0, product := 0 }

/-- FREE VALUE (log entry 4): what the working registers hold while the command `op`, accepted with LOWCHK `lowchk`,
is in flight over the operand files `a`, `b`, `dig`, `blk` with `left` cycles still to go. The spec gives no value;
a circuit starts from cleared registers (R36) and locked operands (R58), so it can depend on nothing else. -/
opaque Config.workInFlight (op : Option Instr) (lowchk : Bool) (a b : Vector Word 8) (dig : Vector Word 4)
  (blk : Vector Word 16) (left : Nat) : Working

end Sys2Proof
end

