-- ==== Sys2Proof/Machine/State.lean ====
section
/-! DEFINITION. The state of the block, as plain data (spec/10_state.md R20, R35, R39), the ports of one clock cycle
(R21), and why a step can stop. -/

namespace Sys2Proof
namespace Machine

/-- One host transfer as the bus presents it (R21). -/
structure Transfer where
  /-- `bus_we`: write if true, read if false. -/
  we : Bool
  /-- `bus_addr`: the byte offset in the window. -/
  addr : BitVec 12
  /-- `bus_size`: 0 = 1 byte, 1 = 2 bytes, 2 = 4 bytes, 3 = reserved. -/
  size : BitVec 2
  /-- `bus_wdata`. -/
  wdata : Word
  deriving DecidableEq, Repr

/-- What stands on the input ports in one clock cycle (R21). -/
structure Pins where
  /-- `rst_n`, active low, sampled at the rising edge. -/
  rstN : Bool
  /-- The transfer presented in this cycle (`bus_req` = 1), or none (`bus_req` = 0). -/
  bus : Option Transfer
  deriving DecidableEq, Repr

/-- The block's answer to a presented transfer (R21). -/
structure BusResponse where
  /-- `bus_rdata`; none where the spec states no read data, the answer to a legal write (log entry 5). -/
  rdata : Option Word
  /-- `bus_err`. -/
  err : Bool
  deriving DecidableEq, Repr

/-- The registers of the window (spec/20_memory.md R53). -/
inductive Reg where
  | id
  | ctrl
  | status
  | cmd
  | a (j : Fin 8)
  | b (j : Fin 8)
  | r (j : Fin 8)
  | dig (j : Fin 4)
  | blk (j : Fin 16)
  /-- Any reserved offset (R57). -/
  | reserved
  deriving DecidableEq, Repr

/-- Why the machine stops. -/
inductive Fault where
  /-- Raised by the engine when a completion is due and no command is in flight (`busy` = 1 and `pend_op` = none).
  R38 rules such a state out in every reachable state. Safe: the machine stops where the spec says nothing. -/
  | noCommandInFlight
  deriving DecidableEq, Repr

/-- Why a command is not run. -/
inductive Refusal where
  /-- Raised by an arm of exec for a command that has no meaning yet; no arm does. Safe. -/
  | notModelled (mnemonic : String)
  deriving DecidableEq, Repr

/-- The state of the block (R20, R35), and two fields of the model's own (`resp`, `inputs`). -/
structure State where
  /-- CTRL[0] (R25). -/
  irqen : Bool
  /-- CTRL[1] (R25). -/
  lowchk : Bool
  /-- STATUS[0] (R26). -/
  busy : Bool
  /-- STATUS[1] (R26). -/
  done : Bool
  /-- STATUS[2] (R26). -/
  ovr : Bool
  /-- STATUS[3] (R26). -/
  accerr : Bool
  /-- STATUS[7:4], the code of R180. -/
  err : BitVec 4
  /-- Operand file A (R29). -/
  fileA : Vector Word 8
  /-- Operand file B (R29). -/
  fileB : Vector Word 8
  /-- Result file R (R32). -/
  fileR : Vector Word 8
  /-- MD5 chaining file DIG (R33). -/
  dig : Vector Word 4
  /-- MD5 block file BLK (R34). -/
  blk : Vector Word 16
  /-- `pend_op`: the command in flight (R20, R35). -/
  pendOp : Option Instr
  /-- `pend_lowchk`: LOWCHK latched at accept (R20, R171). -/
  pendLowchk : Bool
  /-- The cycle counter (R35, R226): edges from now to the completion edge, while busy. -/
  cyclesLeft : Nat
  /-- The units' working registers (R35). -/
  work : Working
  /-- The model's own: the answer of the last cycle (R21), none if no transfer was presented (log entry 5). -/
  resp : Option BusResponse
  /-- The model's own: the input ports of the cycles to come, the next cycle first (log entry 2). -/
  inputs : List Pins
  deriving DecidableEq, Repr

/-- The block right after reset: every element at the value of R39. -/
def State.reset : State :=
  { irqen := false, lowchk := false, busy := false, done := false, ovr := false, accerr := false, err := 0#4
    fileA := Vector.replicate 8 0#32, fileB := Vector.replicate 8 0#32, fileR := Vector.replicate 8 0#32
    dig := Vector.replicate 4 0#32, blk := Vector.replicate 16 0#32
    pendOp := none, pendLowchk := false, cyclesLeft := 0, work := Working.zero, resp := none, inputs := [] }

end Machine
end Sys2Proof
end

