-- ==== Sys2Proof/Machine/Flags.lean ====
section
/-! DEFINITION. The status and control words, every flag's rule, the error codes and the interrupt
(spec/10_state.md R24-R28, R37; spec/60_exceptions.md R180, R184). -/

namespace Sys2Proof
namespace Machine

/-- ERR code NONE (R180). -/
def errNone : BitVec 4 := 0#4

/-- ERR code ILLEGAL_CMD (R180). -/
def errIllegalCmd : BitVec 4 := 1#4

/-- ERR code INVALID_KEY (R180). -/
def errInvalidKey : BitVec 4 := 2#4

/-- A flag as one bit. -/
def bit (flag : Bool) : BitVec 1 := BitVec.ofBool flag

/-- What a read of CTRL returns: `zext_32(ctrl_lowchk ++ ctrl_irqen)` (R25). -/
def ctrlWord (s : State) : Word :=
  (bit s.lowchk ++ bit s.irqen).setWidth 32

/-- What a read of STATUS returns: `zext_32(err ++ accerr ++ ovr ++ done ++ busy)` (R26). -/
def statusWord (s : State) : Word :=
  (s.err ++ bit s.accerr ++ bit s.ovr ++ bit s.done ++ bit s.busy).setWidth 32

/-- A write of CTRL (R25); bits 31:2 are ignored. -/
def writeCtrl (w : Word) (s : State) : State :=
  { s with irqen := w.getLsbD 0, lowchk := w.getLsbD 1 }

/-- A write of STATUS: write-one-to-clear of DONE, OVR and ACCERR; every other bit is ignored (R27). -/
def writeStatus (w : Word) (s : State) : State :=
  { s with
    done := s.done && !w.getLsbD 1
    ovr := s.ovr && !w.getLsbD 2
    accerr := s.accerr && !w.getLsbD 3 }

/-- A CMD write while busy sets OVR and does nothing else (spec/43_system.md R173). -/
def flagOverrun (s : State) : State :=
  { s with ovr := true }

/-- A data-register transfer while busy sets ACCERR and does nothing else (spec/20_memory.md R58). -/
def flagAccessError (s : State) : State :=
  { s with accerr := true }

/-- The output `irq`: level, active high (R184). -/
def irq (s : State) : Bool :=
  s.irqen && s.done

end Machine
end Sys2Proof
end

