-- ==== Sys2Proof/WellFormed.lean ====
section
/-! DEFINITION. Which command words, and which commands, are well formed (spec/30_encoding.md R80, R83, R84). -/

namespace Sys2Proof

/-- RSV is zero: the first half of R80's test of a legal word. -/
def CmdFormat.rsvClear (f : CmdFormat) : Bool :=
  f.rsv == 0#28

/-- OPC is one of 0x1 to 0x7: the second half of R80's test; 0x0 and 0x8 to 0xF are illegal (R83). -/
def CmdFormat.opcKnown (f : CmdFormat) : Bool :=
  decide (1 ≤ f.opc.toNat ∧ f.opc.toNat ≤ 7)

/-- R80: a word is legal if and only if RSV is 0 and OPC is 1 to 7. -/
def CmdFormat.wellFormed (f : CmdFormat) : Bool :=
  f.rsvClear && f.opcKnown

/-- A command has no operand field that could be out of range (R84), so each of the seven is well formed. -/
def Instr.wellFormed : Instr → Bool
  | .montMul => true
  | .fieldRed => true
  | .x25519 => true
  | .x25519Base => true
  | .md5Init => true
  | .md5Block => true
  | .zeroize => true

end Sys2Proof
end

