-- ==== Sys2Proof/Decode.lean ====
section
/-! DEFINITION. The decoder of command words, total on any bytes, and after it the encoder
(spec/30_encoding.md R80-R83; byte order spec/20_memory.md R60). -/

namespace Sys2Proof

/-- Why bytes are no command. The block itself reports both kinds of illegal word in the same way (R83, R170). -/
inductive DecodeError where
  /-- Not exactly four bytes: every command is one 32-bit word (R81). -/
  | notOneWord
  /-- RSV is not zero (R83). -/
  | reservedBitsSet
  /-- OPC is 0x0 or 0x8 to 0xF (R83). -/
  | unknownOpcode
  deriving DecidableEq, Repr

/-- The format's fields: OPC = w[3:0], RSV = w[31:4] (R80). -/
def splitWord (w : Word) : CmdFormat :=
  { opc := w.extractLsb' 0 4, rsv := w.extractLsb' 4 28 }

/-- The opcode map (R82); every other opcode is illegal (R83). -/
def opcodeMap (opc : BitVec 4) : Option Instr :=
  match opc.toNat with
  | 1 => some .montMul
  | 2 => some .fieldRed
  | 3 => some .x25519
  | 4 => some .x25519Base
  | 5 => some .md5Init
  | 6 => some .md5Block
  | 7 => some .zeroize
  | _ => none

/-- Decodes a command word (R80, R82, R83). -/
def decode (w : Word) : Except DecodeError Instr :=
  let f := splitWord w
  if f.rsvClear then
    match opcodeMap f.opc with
    | some i => .ok i
    | none => .error .unknownOpcode
  else .error .reservedBitsSet

/-- The word whose bytes are given, byte 0 least significant (R60). -/
def wordOfBytes (b0 b1 b2 b3 : Byte) : Word :=
  b3 ++ b2 ++ b1 ++ b0

/-- Decodes the bytes of a command, byte 0 first. A command is exactly one word (R81). -/
def decodeBytes : List Byte → Except DecodeError Instr
  | [b0, b1, b2, b3] => decode (wordOfBytes b0 b1 b2 b3)
  | _ => .error .notOneWord

/-- The bytes that hold the number `w` of `nbits` bits, the least significant first, and at least one word of them. -/
def layBytes (nbits w : Nat) : List Byte :=
  (List.range (max 4 (nbits / 8))).map fun k => BitVec.ofNat 8 ((w % 2 ^ nbits) / 2 ^ (8 * k))

/-- The command the decoder reads from a row of the opcode table whose bits are `w`. -/
def decodeTableWord (nbits w : Nat) : Option Instr :=
  match decodeBytes (layBytes nbits w) with
  | .ok i => some i
  | .error _ => none

/-- The opcode of each command (R82). -/
def opcodeOf : Instr → BitVec 4
  | .montMul => 0x1#4
  | .fieldRed => 0x2#4
  | .x25519 => 0x3#4
  | .x25519Base => 0x4#4
  | .md5Init => 0x5#4
  | .md5Block => 0x6#4
  | .zeroize => 0x7#4

/-- The fields of a command's word: RSV is 0 (R82). -/
def formatOf (i : Instr) : CmdFormat :=
  { opc := opcodeOf i, rsv := 0#28 }

/-- The word with the given fields: RSV in the high part, OPC in the low part (R80). -/
def joinWord (f : CmdFormat) : Word :=
  f.rsv ++ f.opc

/-- The command's word (R82). -/
def encode (i : Instr) : Word :=
  joinWord (formatOf i)

/-- Byte `k` of a word (R7). -/
def byteOfWord (w : Word) (k : Nat) : Byte :=
  w.extractLsb' (8 * k) 8

/-- The command's word as bytes, byte 0 first (R60). -/
def encodeBytes (i : Instr) : List Byte :=
  [byteOfWord (encode i) 0, byteOfWord (encode i) 1, byteOfWord (encode i) 2, byteOfWord (encode i) 3]

end Sys2Proof
end

