-- ==== Sys2Proof/Machine/Operands.lean ====
section
/-! DEFINITION. Register files as numbers and bytes, and every operand form of the commands
(spec/00_scope.md R7, R8; spec/20_memory.md R60; spec/30_encoding.md R86). -/

namespace Sys2Proof
namespace Machine

/-- The number whose 32-bit words are given, word 0 least significant (R8). -/
def valWords : List Word → Nat
  | [] => 0
  | w :: ws => w.toNat + 2 ^ 32 * valWords ws

/-- `val(A) = Σ A[j] · 2^(32j)` (R8). -/
def val (file : Vector Word 8) : Nat :=
  valWords file.toList

/-- `words8(x)[j] = x[32j+31:32j]` (R8). -/
def words8 (x : Nat) : Vector Word 8 :=
  Vector.ofFn fun j => BitVec.ofNat 32 (x >>> (32 * j.val))

/-- `le(bytes) = Σ bytes[i] · 2^(8i)` (R8). -/
def le : List Byte → Nat
  | [] => 0
  | b :: bs => b.toNat + 2 ^ 8 * le bs

/-- The `n` bytes of a number, byte 0 first. -/
def leBytes (n x : Nat) : List Byte :=
  (List.range n).map fun i => BitVec.ofNat 8 (x >>> (8 * i))

/-- `bytes32(x)`, the inverse of `le` on 32 bytes (R8). -/
def bytes32 (x : Nat) : List Byte :=
  leBytes 32 x

/-- The bytes a list of words holds: byte i of the value is byte (i mod 4) of word floor(i/4) (R60). -/
def bytesOfWords : List Word → List Byte
  | [] => []
  | w :: ws => byteOfWord w 0 :: byteOfWord w 1 :: byteOfWord w 2 :: byteOfWord w 3 :: bytesOfWords ws

/-- The words that hold a list of bytes, `wj = le(bytes[4j..4j+3])` (R89); bytes past the last whole word are dropped. -/
def wordsOfBytes : List Byte → List Word
  | b0 :: b1 :: b2 :: b3 :: bs => BitVec.ofNat 32 (le [b0, b1, b2, b3]) :: wordsOfBytes bs
  | _ => []

/-- `clamp(v) = (v & ~(2^255 + 7)) | 2^254`: clears bits 0, 1, 2 and 255 and sets bit 254 (spec/41_x25519.md R121). -/
def clamp (v : Nat) : Nat :=
  (v &&& (2 ^ 256 - 1 - (2 ^ 255 + 7))) ||| 2 ^ 254

/-- `decodeU(v) = (v mod 2^255) mod P` (spec/41_x25519.md R123). -/
def decodeU (v : Nat) : Nat :=
  v % 2 ^ 255 % Config.prime

/-- MONT_MUL's operand a: all 256 bits of A, no mask (R86). -/
def mulOperandA (s : State) : Nat := val s.fileA

/-- MONT_MUL's operand b: all 256 bits of B, no mask (R86). -/
def mulOperandB (s : State) : Nat := val s.fileB

/-- FIELD_RED's operand x: A is the low half, B the high half (R86). -/
def redOperand (s : State) : Nat := val s.fileA + 2 ^ 256 * val s.fileB

/-- The scalar of X25519 and X25519_BASE: `clamp(val(A))`; A itself is not changed (R86, R121). -/
def scalarOperand (s : State) : Nat := clamp (val s.fileA)

/-- X25519's operand u: `decodeU(val(B))` (R86, R123). -/
def pointOperand (s : State) : Nat := decodeU (val s.fileB)

end Machine
end Sys2Proof
end

