-- ==== Sys2Proof/Machine/Ops.lean ====
section
/-! DEFINITION. The named operations over the registers: the address map, reads and writes of the files, the sequencer's
events (spec/20_memory.md R53-R58; spec/43_system.md R170-R174; spec/60_exceptions.md R180-R189). -/

namespace Sys2Proof
namespace Machine

/-! ### The address map -/

/-- The register at a byte offset (R53). Word j of a file stands at the file's first offset plus 4j. -/
def regAt (off : BitVec 12) : Reg :=
  let n := off.toNat
  if n < 0x004 then .id
  else if n < 0x008 then .ctrl
  else if n < 0x00C then .status
  else if n < 0x010 then .cmd
  else if n < 0x040 then .reserved
  else if n < 0x060 then .a (Fin.ofNat 8 ((n - 0x040) / 4))
  else if n < 0x080 then .b (Fin.ofNat 8 ((n - 0x060) / 4))
  else if n < 0x0A0 then .r (Fin.ofNat 8 ((n - 0x080) / 4))
  else if n < 0x0B0 then .dig (Fin.ofNat 4 ((n - 0x0A0) / 4))
  else if n < 0x100 then .reserved
  else if n < 0x140 then .blk (Fin.ofNat 16 ((n - 0x100) / 4))
  else .reserved

/-- The data registers are the five files A, B, R, DIG and BLK (R53). -/
def Reg.isData : Reg → Bool
  | .a _ | .b _ | .r _ | .dig _ | .blk _ => true
  | .id | .ctrl | .status | .cmd | .reserved => false

/-- R56: a transfer is legal if and only if it is 4 bytes wide and its offset is a multiple of 4. -/
def Transfer.legal (t : Transfer) : Bool :=
  t.size == 2#2 && t.addr.toNat % 4 == 0

/-! ### Registers -/

/-- What a register reads as when no lock applies (R54). ID is a constant (R24), CMD reads 0 (R28), and a reserved
offset reads 0 (R57). -/
def readReg (s : State) : Reg → Word
  | .id => Config.idValue
  | .ctrl => ctrlWord s
  | .status => statusWord s
  | .cmd => 0#32
  | .a j => s.fileA[j]
  | .b j => s.fileB[j]
  | .r j => s.fileR[j]
  | .dig j => s.dig[j]
  | .blk j => s.blk[j]
  | .reserved => 0#32

/-- `A[j] <- w` (R8). -/
def writeA (j : Fin 8) (w : Word) (s : State) : State :=
  { s with fileA := s.fileA.set j w }

/-- `B[j] <- w` (R8). -/
def writeB (j : Fin 8) (w : Word) (s : State) : State :=
  { s with fileB := s.fileB.set j w }

/-- `DIG[j] <- w` (R8). -/
def writeDig (j : Fin 4) (w : Word) (s : State) : State :=
  { s with dig := s.dig.set j w }

/-- `BLK[j] <- w` (R8). -/
def writeBlk (j : Fin 16) (w : Word) (s : State) : State :=
  { s with blk := s.blk.set j w }

/-- R is written whole, in one step (R32). -/
def putR (file : Vector Word 8) (s : State) : State :=
  { s with fileR := file }

/-- DIG is written whole, in one step (R33, R63). -/
def putDig (file : Vector Word 4) (s : State) : State :=
  { s with dig := file }

/-- Every word of the five files becomes zero (R175). -/
def zeroFiles (s : State) : State :=
  { s with
    fileA := Vector.replicate 8 0#32
    fileB := Vector.replicate 8 0#32
    fileR := Vector.replicate 8 0#32
    dig := Vector.replicate 4 0#32
    blk := Vector.replicate 16 0#32 }

/-- The bus answers the transfer of this cycle (R21). -/
def respond (r : Option BusResponse) (s : State) : State :=
  { s with resp := r }

/-! ### The sequencer's events -/

/-- Reporting an event, the block's whole form of taking an exception: DONE is set and ERR holds the code. It saves no
state, switches no mode and jumps nowhere (R180, R183, R188). `irq` follows from DONE (R184). The return is the W1C of
DONE, `writeStatus`, or the accept of the next command, `accept` (R189). -/
def report (code : BitVec 4) (s : State) : State :=
  { s with done := true, err := code }

/-- Accept of a command (R171). The cycle counter is loaded with LAT_op (R225), and the units' working registers start
on their way (R35). -/
def accept (i : Instr) (s : State) : State :=
  { s with
    busy := true
    done := false
    err := errNone
    pendOp := some i
    pendLowchk := s.lowchk
    cyclesLeft := Config.latency i
    work := Config.workInFlight (some i) s.lowchk s.fileA s.fileB s.dig s.blk (Config.latency i) }

/-- The sequencer goes idle: BUSY and pend_op are cleared, and so are the working registers and the cycle counter
(R36, R172). -/
def goIdle (s : State) : State :=
  { s with busy := false, pendOp := none, cyclesLeft := 0, work := Working.zero }

/-- The end of a command with an ERR code: the bookkeeping of a completion (R172, R180). -/
def endCommand (code : BitVec 4) (s : State) : State :=
  report code (goIdle s)

/-- The whole CMD write, with its tests in the order of R174: busy sets OVR (R173), an illegal word is reported
(R170), a legal one is accepted (R171). -/
def commandWrite (w : Word) (s : State) : State :=
  if s.busy then flagOverrun s
  else
    match decode w with
    | .ok i => accept i s
    | .error _ => report errIllegalCmd s

end Machine
end Sys2Proof
end

