-- ==== Sys2Proof/Machine/Bus.lean ====
section
/-! DEFINITION. One host transfer, decided in the order of R52: legality, region, busy lock, the register's own effect
(spec/20_memory.md R50-R63; spec/60_exceptions.md R187). -/

namespace Sys2Proof
namespace Machine

/-- `BusRead(off, 4)` as a transfer (R10). -/
def readTransfer (off : BitVec 12) : Transfer :=
  { we := false, addr := off, size := 2#2, wdata := 0#32 }

/-- `BusWrite(off, 4, w)` as a transfer (R10). -/
def writeTransfer (off : BitVec 12) (w : Word) : Transfer :=
  { we := true, addr := off, size := 2#2, wdata := w }

/-- The busy lock: a data register while busy (R58). -/
def locked (s : State) (reg : Reg) : Bool :=
  reg.isData && s.busy

/-- The answer to a legal read: the read data, and no error (R54). -/
def readAnswer (v : Word) : BusResponse := { rdata := some v, err := false }

/-- The answer to a legal write: no error (R55); the spec states no read data for it (log entry 5). -/
def writeAnswer : BusResponse := { rdata := none, err := false }

/-- The answer to an illegal transfer: `bus_err` = 1 and `bus_rdata` = 0 (R56). -/
def errorAnswer : BusResponse := { rdata := some 0#32, err := true }

/-- The answer to a transfer presented while `rst_n` = 0 (spec/70_reset_and_hazards.md R210). -/
def resetAnswer : BusResponse := { rdata := some 0#32, err := false }

/-- A legal read at an offset (R54, R58). -/
def busRead (off : BitVec 12) (s : State) : State :=
  if locked s (regAt off) then respond (some (readAnswer 0#32)) (flagAccessError s)
  else respond (some (readAnswer (readReg s (regAt off)))) s

/-- The effect of a write on a register that is not locked (R55). ID and R are read-only, and a write to them or to a
reserved offset is ignored (R24, R32, R57). -/
def writeReg (reg : Reg) (w : Word) (s : State) : State :=
  match reg with
  | .id => s
  | .ctrl => writeCtrl w s
  | .status => writeStatus w s
  | .cmd => commandWrite w s
  | .a j => writeA j w s
  | .b j => writeB j w s
  | .r _ => s
  | .dig j => writeDig j w s
  | .blk j => writeBlk j w s
  | .reserved => s

/-- A legal write of a word at an offset (R55, R58). -/
def busWrite (off : BitVec 12) (w : Word) (s : State) : State :=
  respond (some writeAnswer)
    (if locked s (regAt off) then flagAccessError s else writeReg (regAt off) w s)

/-- One transfer (R52). An illegal one answers the error response and changes nothing (R56). -/
def busTransfer (t : Transfer) (s : State) : State :=
  if t.legal then
    if t.we then busWrite t.addr t.wdata s else busRead t.addr s
  else respond (some errorAnswer) s

/-- What the bus does in one cycle: at most one transfer (R21, R51). -/
def busCycle (presented : Option Transfer) (s : State) : State :=
  match presented with
  | none => respond none s
  | some t => busTransfer t s

end Machine
end Sys2Proof
end

