-- ==== Sys2Proof/Machine/Field.lean ====
section
/-! DEFINITION. The field GF(P) and the units montgomery_mult and field_reduction (spec/00_scope.md R9; spec/40_field.md). -/

namespace Sys2Proof
namespace Machine

/-- `x +ₚ y = (x + y) mod P` (R9). -/
def fadd (x y : Nat) : Nat := (x + y) % Config.prime

/-- `x -ₚ y = (x - y) mod P`, the least non-negative residue (R9). -/
def fsub (x y : Nat) : Nat := (x + (Config.prime - y % Config.prime)) % Config.prime

/-- `x ·ₚ y = (x * y) mod P` (R9). -/
def fmul (x y : Nat) : Nat := x * y % Config.prime

/-- `z^e mod P` for an exponent of at most `bits` bits, by repeated squaring. -/
def fpow (z e : Nat) : Nat → Nat
  | 0 => 1 % Config.prime
  | bits + 1 =>
    let half := fpow z (e / 2) bits
    if e % 2 = 1 then fmul z (fmul half half) else fmul half half

/-- `inv(z) = z^(P-2) mod P`, so `inv(0) = 0` (R9). P - 2 has 255 bits. -/
def finv (z : Nat) : Nat := fpow z (Config.prime - 2) 255

/-- MONT_MUL at completion: `R <- words8((val(A) * val(B)) mod P)`, ERR 0 (R100). -/
def execMontMul (s : State) : Host.Outcome State Fault Refusal :=
  .next (endCommand errNone (putR (words8 (fmul (mulOperandA s) (mulOperandB s))) s))

/-- FIELD_RED at completion: `R <- words8(x mod P)` for `x = val(A) + 2^256 * val(B)`, ERR 0 (R105). -/
def execFieldRed (s : State) : Host.Outcome State Fault Refusal :=
  .next (endCommand errNone (putR (words8 (redOperand s % Config.prime)) s))

end Machine
end Sys2Proof
end

