-- ==== Sys2Proof/Machine/Md5.lean ====
section
/-! DEFINITION. The unit md5_core (spec/42_md5.md). -/

namespace Sys2Proof
namespace Machine

/-- The chaining value (a, b, c, d), or the round registers (R147). -/
structure Chain where
  a : Word
  b : Word
  c : Word
  d : Word
  deriving DecidableEq, Repr

/-- The initial chaining value IV (R142). -/
def md5Iv : Chain :=
  { a := 0x67452301#32, b := 0xEFCDAB89#32, c := 0x98BADCFE#32, d := 0x10325476#32 }

/-- F, of steps 0-15 (R143). -/
def roundF (x y z : Word) : Word := (x &&& y) ||| (~~~x &&& z)

/-- G, of steps 16-31 (R143). -/
def roundG (x y z : Word) : Word := (x &&& z) ||| (y &&& ~~~z)

/-- H, of steps 32-47 (R143). -/
def roundH (x y z : Word) : Word := x ^^^ y ^^^ z

/-- I, of steps 48-63 (R143). -/
def roundI (x y z : Word) : Word := y ^^^ (x ||| ~~~z)

/-- The round function of step i (R147). -/
def roundFun (i : Nat) (x y z : Word) : Word :=
  if i ≤ 15 then roundF x y z
  else if i ≤ 31 then roundG x y z
  else if i ≤ 47 then roundH x y z
  else roundI x y z

/-- The message index g(i) (R144). -/
def messageIndex (i : Nat) : Nat :=
  if i ≤ 15 then i
  else if i ≤ 31 then (5 * i + 1) % 16
  else if i ≤ 47 then (3 * i + 5) % 16
  else 7 * i % 16

/-- The rotation amount s(i) (R145). -/
def rotateAmount (i : Nat) : Nat :=
  let row :=
    if i ≤ 15 then [7, 12, 17, 22]
    else if i ≤ 31 then [5, 9, 14, 20]
    else if i ≤ 47 then [4, 11, 16, 23]
    else [6, 10, 15, 21]
  row.getD (i % 4) 0

/-- T[0..15] (R146). -/
def sineTable0 : List Word :=
  [0xd76aa478#32, 0xe8c7b756#32, 0x242070db#32, 0xc1bdceee#32] ++
  [0xf57c0faf#32, 0x4787c62a#32, 0xa8304613#32, 0xfd469501#32] ++
  [0x698098d8#32, 0x8b44f7af#32, 0xffff5bb1#32, 0x895cd7be#32] ++
  [0x6b901122#32, 0xfd987193#32, 0xa679438e#32, 0x49b40821#32]

/-- T[16..31] (R146). -/
def sineTable1 : List Word :=
  [0xf61e2562#32, 0xc040b340#32, 0x265e5a51#32, 0xe9b6c7aa#32] ++
  [0xd62f105d#32, 0x02441453#32, 0xd8a1e681#32, 0xe7d3fbc8#32] ++
  [0x21e1cde6#32, 0xc33707d6#32, 0xf4d50d87#32, 0x455a14ed#32] ++
  [0xa9e3e905#32, 0xfcefa3f8#32, 0x676f02d9#32, 0x8d2a4c8a#32]

/-- T[32..47] (R146). -/
def sineTable2 : List Word :=
  [0xfffa3942#32, 0x8771f681#32, 0x6d9d6122#32, 0xfde5380c#32] ++
  [0xa4beea44#32, 0x4bdecfa9#32, 0xf6bb4b60#32, 0xbebfbc70#32] ++
  [0x289b7ec6#32, 0xeaa127fa#32, 0xd4ef3085#32, 0x04881d05#32] ++
  [0xd9d4d039#32, 0xe6db99e5#32, 0x1fa27cf8#32, 0xc4ac5665#32]

/-- T[48..63] (R146). -/
def sineTable3 : List Word :=
  [0xf4292244#32, 0x432aff97#32, 0xab9423a7#32, 0xfc93a039#32] ++
  [0x655b59c3#32, 0x8f0ccc92#32, 0xffeff47d#32, 0x85845dd1#32] ++
  [0x6fa87e4f#32, 0xfe2ce6e0#32, 0xa3014314#32, 0x4e0811a1#32] ++
  [0xf7537e82#32, 0xbd3af235#32, 0x2ad7d2bb#32, 0xeb86d391#32]

/-- The additive constants T, transcribed from the table of R146. -/
def sineTable : List Word :=
  sineTable0 ++ sineTable1 ++ sineTable2 ++ sineTable3

/-- The additive constant T[i] (R146). -/
def sineConst (i : Nat) : Word := sineTable.getD i 0#32

/-- The message word M[j] = BLK[j] (R86, R141). -/
def messageWord (m : Vector Word 16) (j : Nat) : Word := m[Fin.ofNat 16 j]

/-- `rotl₃₂(x, s) = ((x << s) | (x >> (32 - s))) mod 2^32` (spec/00_scope.md R9). -/
def rotl (x : Word) (s : Nat) : Word := (x <<< s) ||| (x >>> (32 - s))

/-- Step i of the compression (R147); every addition is modulo 2^32. -/
def md5Step (m : Vector Word 16) (i : Nat) (v : Chain) : Chain :=
  { a := v.d
    b := v.b + rotl (v.a + roundFun i v.b v.c v.d + sineConst i + messageWord m (messageIndex i)) (rotateAmount i)
    c := v.b
    d := v.c }

/-- The first `n` steps of the compression, in the order i = 0, 1, … (R147). -/
def md5Rounds (m : Vector Word 16) : Nat → Chain → Chain
  | 0, v => v
  | n + 1, v => md5Step m n (md5Rounds m n v)

/-- `Compress` (R147): 64 steps, then the chaining value is added. -/
def compress (h : Chain) (m : Vector Word 16) : Chain :=
  let v := md5Rounds m 64 h
  { a := h.a + v.a, b := h.b + v.b, c := h.c + v.c, d := h.d + v.d }

/-- (a, b, c, d) = (DIG[0], DIG[1], DIG[2], DIG[3]) (R33, R86). -/
def chainOfDig (dig : Vector Word 4) : Chain :=
  { a := dig[0], b := dig[1], c := dig[2], d := dig[3] }

/-- The words of DIG that hold a chaining value (R33). -/
def digOfChain (v : Chain) : Vector Word 4 :=
  #v[v.a, v.b, v.c, v.d]

/-- MD5_INIT at completion: DIG <- IV, ERR 0 (R140). -/
def execMd5Init (s : State) : Host.Outcome State Fault Refusal :=
  .next (endCommand errNone (putDig (digOfChain md5Iv) s))

/-- MD5_BLOCK at completion: DIG <- Compress(DIG, BLK), ERR 0 (R141). -/
def execMd5Block (s : State) : Host.Outcome State Fault Refusal :=
  .next (endCommand errNone (putDig (digOfChain (compress (chainOfDig s.dig) s.blk)) s))

end Machine
end Sys2Proof
end

