-- ==== Sys2Proof/Machine/System.lean ====
section
/-! DEFINITION. The sequencer's own command (spec/43_system.md R175). -/

namespace Sys2Proof
namespace Machine

/-- ZEROIZE at completion: every word of A, B, R, DIG and BLK becomes zero, ERR 0; CTRL, OVR and ACCERR stay (R175). -/
def execZeroize (s : State) : Host.Outcome State Fault Refusal :=
  .next (endCommand errNone (zeroFiles s))

end Machine
end Sys2Proof
end

