-- ==== Sys2Proof/Machine/X25519.lean ====
section
/-! DEFINITION. The unit curve25519_scalar_mult (spec/41_x25519.md). -/

namespace Sys2Proof
namespace Machine

/-- The ladder's variables x2, z2, x3, z3 and swap (R122). -/
structure LadderVars where
  x2 : Nat
  z2 : Nat
  x3 : Nat
  z3 : Nat
  swap : Bool
  deriving DecidableEq, Repr

/-- `(x2, x3) <- cswap(s, x2, x3); (z2, z3) <- cswap(s, z2, z3)` (R122). -/
def cswapBoth (s : Bool) (v : LadderVars) : LadderVars :=
  match s with
  | true => { v with x2 := v.x3, z2 := v.z3, x3 := v.x2, z3 := v.z2 }
  | false => v

/-- The field arithmetic of one iteration of the ladder (R122). -/
def ladderArith (x1 : Nat) (v : LadderVars) : LadderVars :=
  let ta := fadd v.x2 v.z2
  let taa := fmul ta ta
  let tb := fsub v.x2 v.z2
  let tbb := fmul tb tb
  let te := fsub taa tbb
  let tc := fadd v.x3 v.z3
  let td := fsub v.x3 v.z3
  let tda := fmul td ta
  let tcb := fmul tc tb
  { x3 := fmul (fadd tda tcb) (fadd tda tcb)
    z3 := fmul x1 (fmul (fsub tda tcb) (fsub tda tcb))
    x2 := fmul taa tbb
    z2 := fmul te (fadd taa (fmul Config.a24 te))
    swap := v.swap }

/-- One iteration, for the scalar bit `kt` (R122). -/
def ladderStep (x1 : Nat) (kt : Bool) (v : LadderVars) : LadderVars :=
  ladderArith x1 { cswapBoth (v.swap ^^ kt) v with swap := kt }

/-- The iterations for t = n - 1 down to 0 (R122). -/
def ladderLoop (k x1 : Nat) : Nat → LadderVars → LadderVars
  | 0, v => v
  | t + 1, v => ladderLoop k x1 t (ladderStep x1 (k.testBit t) v)

/-- The ladder's variables before the first iteration (R122). -/
def ladderStart (u : Nat) : LadderVars :=
  { x2 := 1, z2 := 0, x3 := u, z3 := 1, swap := false }

/-- The ladder's variables after its 255 iterations and the last cswap (R122). -/
def ladderEnd (k u : Nat) : LadderVars :=
  let v := ladderLoop k u 255 (ladderStart u)
  cswapBoth v.swap v

/-- `Ladder(k, u) = x2 ·ₚ inv(z2)` (R122). -/
def ladder (k u : Nat) : Nat :=
  let v := ladderEnd k u
  fmul v.x2 (finv v.z2)

/-- The ERR code of a scalar multiplication with result `r`: INVALID_KEY if LOWCHK was latched and `r` is 0 (R126). -/
def scalarMulErr (lowchk : Bool) (r : Nat) : BitVec 4 :=
  if lowchk && r == 0 then errInvalidKey else errNone

/-- What R receives for a scalar multiplication with result `r`: with INVALID_KEY, zero (R126). -/
def scalarMulResult (lowchk : Bool) (r : Nat) : Vector Word 8 :=
  if lowchk && r == 0 then words8 0 else words8 r

/-- The completion of a scalar multiplication with result `r` (R120, R124, R126). -/
def scalarMulEnd (r : Nat) (s : State) : State :=
  endCommand (scalarMulErr s.pendLowchk r) (putR (scalarMulResult s.pendLowchk r) s)

/-- X25519 at completion (R120). -/
def execX25519 (s : State) : Host.Outcome State Fault Refusal :=
  .next (scalarMulEnd (ladder (scalarOperand s) (pointOperand s)) s)

/-- X25519_BASE at completion: u = 9, and B is not read (R124). -/
def execX25519Base (s : State) : Host.Outcome State Fault Refusal :=
  .next (scalarMulEnd (ladder (scalarOperand s) Config.uBase) s)

end Machine
end Sys2Proof
end

