-- ==== Sys2Proof/Machine/Dispatch.lean ====
section
/-! DEFINITION. The effect of each command, at its completion (spec/43_system.md R172). -/

namespace Sys2Proof
namespace Machine

def exec (i : Instr) (s : State) : Host.Outcome State Fault Refusal :=
  match i with
  | .montMul => Sys2Proof.Machine.execMontMul s
  | .fieldRed => Sys2Proof.Machine.execFieldRed s
  | .x25519 => Sys2Proof.Machine.execX25519 s
  | .x25519Base => Sys2Proof.Machine.execX25519Base s
  | .md5Init => Sys2Proof.Machine.execMd5Init s
  | .md5Block => Sys2Proof.Machine.execMd5Block s
  | .zeroize => Sys2Proof.Machine.execZeroize s

end Machine
end Sys2Proof
end

