-- ==== Sys2Proof/Machine/Engine.lean ====
section
/-! DEFINITION. One rising edge of `clk`: reset, the host's transfer, the cycle counter, and the engine's completion
(spec/00_scope.md R11; spec/43_system.md R172; spec/60_exceptions.md R186, R187; spec/70_reset_and_hazards.md R210,
R211, R225). -/

namespace Sys2Proof
namespace Machine

/-- A cycle in which the outside world does nothing: `rst_n` = 1 and `bus_req` = 0. -/
def idlePins : Pins := { rstN := true, bus := none }

/-- The input ports of the next cycle; an exhausted list is an idle bus out of reset (log entry 2). -/
def nextPins (s : State) : Pins :=
  match s.inputs with
  | [] => idlePins
  | p :: _ => p

/-- The cycles after the next one. -/
def popPins (s : State) : State :=
  { s with inputs := s.inputs.tail }

/-- The outside world presents `ps` before what it was going to present. -/
def presentPins (ps : List Pins) (s : State) : State :=
  { s with inputs := ps ++ s.inputs }

/-- An edge with `rst_n` = 0: every element takes its reset value, and a presented transfer answers 0 without an
error (R210). A command in flight is aborted (R211). -/
def resetEdge (presented : Option Transfer) (s : State) : State :=
  { State.reset with inputs := s.inputs, resp := presented.map fun _ => resetAnswer }

/-- The completion edge is the next one (R172, R225). -/
def completionDue (s : State) : Bool :=
  s.busy && decide (s.cyclesLeft ≤ 1)

/-- The engine's step: the completion of the command in flight (R172). -/
def complete (s : State) : Host.Outcome State Fault Refusal :=
  match s.pendOp with
  | some i => exec i s
  | none => .fault .noCommandInFlight

/-- An edge on which the command in flight does not complete: the counter goes down and the units work on (R35). -/
def tick (s : State) : State :=
  if s.busy then
    { s with
      cyclesLeft := s.cyclesLeft - 1
      work := Config.workInFlight s.pendOp s.pendLowchk s.fileA s.fileB s.dig s.blk (s.cyclesLeft - 1) }
  else s

/-- One edge with the given input ports. Reset comes before everything (R187, R210); the transfer is decided on the
state before the completion (R186). -/
def clockEdge (p : Pins) (s : State) : Host.Outcome State Fault Refusal :=
  if p.rstN then
    if completionDue s then complete (busCycle p.bus s)
    else .next (busCycle p.bus (tick s))
  else .next (resetEdge p.bus s)

/-- The state right after the accept of `i`, with the completion due at the next edge and no transfer in that cycle:
where the engine takes its next command from. -/
def loadCommand (i : Instr) (s : State) : State :=
  presentPins [idlePins] { accept i s with cyclesLeft := 1 }

/-- The command word `w` given to the block so that the next edge runs it; a word that is no command has the effect of
its CMD write (R170, R173). -/
def loadWord (nbits w : Nat) (s : State) : State :=
  match decodeTableWord nbits w with
  | some i => loadCommand i s
  | none => presentPins [idlePins] (commandWrite (BitVec.ofNat 32 w) s)

end Machine
end Sys2Proof
end

