-- ==== Sys2Proof/Machine/Step.lean ====
section
/-! DEFINITION. One step of the machine: one rising edge of `clk` (spec/10_state.md R21; log entry 2). -/

namespace Sys2Proof
namespace Machine

/-- One rising edge, with the input ports that stand first in `inputs`. -/
def step (s : State) : Host.Outcome State Fault Refusal :=
  clockEdge (nextPins s) (popPins s)

/-- `s` with the command word `w` accepted and its completion due at the next edge (log entry 8). -/
def State.withFetchWord (s : State) (nbits w : Nat) : State :=
  loadWord nbits w s

end Machine
end Sys2Proof
end

