-- ==== Sys2Proof/Machine/Hostseq.lean ====
section
/-! DEFINITION. The host's side: host addresses, programs as bus sequences, MD5 padding and the whole digest
(spec/20_memory.md R50; spec/30_encoding.md R88, R89; spec/42_md5.md R149-R151). -/

namespace Sys2Proof
namespace Machine

/-! ### Host addresses -/

/-- The host address of an offset: P_BASE + off (R10, R50). -/
def hostAddress (off : BitVec 12) : Nat :=
  Config.windowBase + off.toNat

/-- The offset of a host address in the window, none outside its 4096 bytes (R10, R50). -/
def windowOffset (addr : Nat) : Option (BitVec 12) :=
  if Config.windowBase ≤ addr ∧ addr < Config.windowBase + 4096 then
    some (BitVec.ofNat 12 (addr - Config.windowBase))
  else none

/-! ### Host operations -/

/-- The offset a register name stands for (R53, R88); a reserved offset has no name. -/
def Reg.offset : Reg → Option (BitVec 12)
  | .id => some 0x000#12
  | .ctrl => some 0x004#12
  | .status => some 0x008#12
  | .cmd => some 0x00C#12
  | .a j => some (BitVec.ofNat 12 (0x040 + 4 * j.val))
  | .b j => some (BitVec.ofNat 12 (0x060 + 4 * j.val))
  | .r j => some (BitVec.ofNat 12 (0x080 + 4 * j.val))
  | .dig j => some (BitVec.ofNat 12 (0x0A0 + 4 * j.val))
  | .blk j => some (BitVec.ofNat 12 (0x100 + 4 * j.val))
  | .reserved => none

/-- The ports of a cycle that presents `BusWrite(off, 4, w)` (R10). -/
def writePins (off : BitVec 12) (w : Word) : Pins :=
  { rstN := true, bus := some (writeTransfer off w) }

/-- The ports of a cycle that presents `BusRead(off, 4)` (R10). -/
def readPins (off : BitVec 12) : Pins :=
  { rstN := true, bus := some (readTransfer off) }

/-- One line of a host program: a transfer, or the loop WAIT (R88, R89). -/
inductive HostOp where
  | transfer (p : Pins)
  | wait
  deriving DecidableEq, Repr

/-- `WR <reg>, <imm32>` (R88). -/
def hostWr (reg : Reg) (w : Word) : List HostOp :=
  match reg.offset with
  | some off => [.transfer (writePins off w)]
  | none => []

/-- `RD <reg>` (R88). -/
def hostRd (reg : Reg) : List HostOp :=
  match reg.offset with
  | some off => [.transfer (readPins off)]
  | none => []

/-- `CMD <MNEMONIC>` (R89). -/
def hostCmd (i : Instr) : List HostOp :=
  hostWr .cmd (encode i)

/-- `WR256 <X>` for X in A, B: eight writes of a 32-byte string, `wj = le(bytes[4j..4j+3])` (R89). -/
def hostWr256 (file : Fin 8 → Reg) (bytes : List Byte) : List HostOp :=
  (List.finRange 8).flatMap fun j => hostWr (file j) ((wordsOfBytes bytes).getD j.val 0#32)

/-- `RD256 <X>`: eight reads (R89). Its value is `HostOutcome.valueRead` of its run. -/
def hostRd256 (file : Fin 8 → Reg) : List HostOp :=
  (List.finRange 8).flatMap fun j => hostRd (file j)

/-- `WRINT <X>, <integer>` for an integer below 2^256: WR256 of `bytes32(integer)` (R89). -/
def hostWrInt (file : Fin 8 → Reg) (n : Nat) : List HostOp :=
  hostWr256 file (bytes32 n)

/-- `WRBLK`: sixteen writes of a 64-byte block (R89). -/
def hostWrBlk (bytes : List Byte) : List HostOp :=
  (List.finRange 16).flatMap fun j => hostWr (.blk j) ((wordsOfBytes bytes).getD j.val 0#32)

/-- `RDDIG`: four reads (R89). The digest bytes are `HostOutcome.bytesRead` of its run. -/
def hostRdDig : List HostOp :=
  (List.finRange 4).flatMap fun j => hostRd (.dig j)

/-! ### Running a host program -/

/-- How a host program ends. `values` are the words the host has read, in order: one for each `RD`, and for each WAIT
the word it ended on. -/
inductive HostOutcome where
  /-- Every line has run. -/
  | done (values : List Word) (s : State)
  /-- The program still stands in a WAIT: every poll it was allowed read DONE = 0 (log entry 13). -/
  | waiting (values : List Word) (s : State)
  /-- A step ended in a fault. -/
  | fault (f : Fault)
  /-- A step ended in a refusal. -/
  | refused (r : Refusal)
  deriving DecidableEq, Repr

/-- The words read so far come before those of the rest of the program; a program that has not got so far has no
rest. -/
def HostOutcome.andThen (o : HostOutcome) (rest : State → HostOutcome) : HostOutcome :=
  match o with
  | .done values s =>
    match rest s with
    | .done more t => .done (values ++ more) t
    | .waiting more t => .waiting (values ++ more) t
    | .fault f => .fault f
    | .refused r => .refused r
  | .waiting values s => .waiting values s
  | .fault f => .fault f
  | .refused r => .refused r

/-- One transfer presented in the next cycle. -/
def runTransfer (p : Pins) (s : State) : Host.Outcome State Fault Refusal :=
  step (presentPins [p] s)

/-- What the host reads in the cycle that just ended: the read data, if the transfer was a read (R10, R88). -/
def wordsRead (p : Pins) (t : State) : List Word :=
  match p.bus, t.resp with
  | some tr, some answer => if tr.we then [] else answer.rdata.toList
  | _, _ => []

/-- Bit 1 (DONE) of the value the last cycle's read returned (R89). -/
def lastReadDone (s : State) : Bool :=
  match s.resp with
  | some { rdata := some v, err := _ } => v.getLsbD 1
  | _ => false

/-- One base line `WR` or `RD` (R88). -/
def runLine (p : Pins) (s : State) : HostOutcome :=
  match runTransfer p s with
  | .next t => .done (wordsRead p t) t
  | .fault f => .fault f
  | .refused r => .refused r

/-- The line `RD STATUS` (R88). -/
def pollPins : Pins := readPins 0x008#12

/-- `WAIT`: repeat `RD STATUS` until bit 1 of the value read is 1 (R89). With `polls` reads that all returned 0 there,
the host still waits. -/
def runWait : Nat → State → HostOutcome
  | 0, s => .waiting [] s
  | polls + 1, s =>
    match runTransfer pollPins s with
    | .next t => if lastReadDone t then .done (wordsRead pollPins t) t else runWait polls t
    | .fault f => .fault f
    | .refused r => .refused r

/-- One operation of a host program, a WAIT with at most `polls` reads. -/
def runOp (polls : Nat) (op : HostOp) (s : State) : HostOutcome :=
  match op with
  | .transfer p => runLine p s
  | .wait => runWait polls s

/-- A host program, line by line; each transfer is a step of its own (R89). A line after a WAIT runs only when the WAIT
has read DONE = 1. -/
def runHost (polls : Nat) : List HostOp → State → HostOutcome
  | [], s => .done [] s
  | op :: ops, s => (runOp polls op s).andThen (runHost polls ops)

/-- The words a program that has ended has read. -/
def HostOutcome.values? : HostOutcome → Option (List Word)
  | .done values _ => some values
  | .waiting _ _ | .fault _ | .refused _ => none

/-- The bytes of the words read: RDDIG's digest bytes (R89, R148). -/
def HostOutcome.bytesRead (o : HostOutcome) : Option (List Byte) :=
  o.values?.map bytesOfWords

/-- `le` of the bytes read back: RD256's value (R89). -/
def HostOutcome.valueRead (o : HostOutcome) : Option Nat :=
  o.bytesRead.map le

/-! ### MD5 on the host's side -/

/-- z of R150: the least non-negative integer with (L + 1 + z) mod 64 = 56. -/
def padZeros (len : Nat) : Nat :=
  (119 - len % 64) % 64

/-- `pad(m)` (R150). -/
def md5Pad (m : List Byte) : List Byte :=
  m ++ [0x80#8] ++ List.replicate (padZeros m.length) 0x00#8 ++ leBytes 8 (8 * m.length % 2 ^ 64)

/-- A 64-byte block as the words of BLK (R60). -/
def blockOfBytes (bytes : List Byte) : Vector Word 16 :=
  Vector.ofFn fun j => (wordsOfBytes bytes).getD j.val 0#32

/-- The 64-byte blocks of a padded message, in order (R151). -/
def blocksOf (bytes : List Byte) : List (List Byte) :=
  (List.range (bytes.length / 64)).map fun n => (bytes.drop (64 * n)).take 64

/-- The chaining value after the whole padded message (R151). -/
def md5Chain (m : List Byte) : Chain :=
  ((blocksOf (md5Pad m)).map blockOfBytes).foldl compress md5Iv

/-- The 16 digest bytes of a chaining value: DIG[0] first, each word least significant byte first (R148). -/
def digestBytes (v : Chain) : List Byte :=
  bytesOfWords [v.a, v.b, v.c, v.d]

/-- The source's `md5(m)` (R151). -/
def md5 (m : List Byte) : List Byte :=
  digestBytes (md5Chain m)

/-- The host sequence of R151 without its last line: MD5_INIT, then every block of the padded message. -/
def md5Absorb (m : List Byte) : List HostOp :=
  hostCmd .md5Init ++ [.wait] ++
    (blocksOf (md5Pad m)).flatMap fun b => hostWrBlk b ++ hostCmd .md5Block ++ [.wait]

/-- The host sequence of R151. -/
def md5Program (m : List Byte) : List HostOp :=
  md5Absorb m ++ hostRdDig

/-- The digest the host gets from the block by the sequence of R151: the bytes its RDDIG reads. -/
def runDigest (polls : Nat) (m : List Byte) (s : State) : Option (List Byte) :=
  match runHost polls (md5Absorb m) s with
  | .done _ t => (runHost polls hostRdDig t).bytesRead
  | .waiting _ _ | .fault _ | .refused _ => none

end Machine
end Sys2Proof
end

