-- ==== Sys2Proof/Safety.lean ====
section
/-! DEFINITION. The invariants of the block, and what two states must share for a claim of secrecy. -/

namespace Sys2Proof
namespace Machine

/-- The three invariants of spec/10_state.md R38. -/
abbrev SequencerOk (s : State) : Prop :=
  (s.busy = true ↔ s.pendOp ≠ none) ∧
  (s.busy = true → s.done = false ∧ s.err = 0#4) ∧
  (s.err = 0#4 ∨ s.err = 1#4 ∨ s.err = 2#4)

/-- The cycle counter stands between 1 and LAT_op while the command op is in flight (R225). -/
abbrev CounterOk (s : State) : Prop :=
  match s.pendOp with
  | some i => 1 ≤ s.cyclesLeft ∧ s.cyclesLeft ≤ Config.latency i
  | none => s.cyclesLeft = 0

/-- While no command is in flight the working registers are zero (R36). -/
abbrev WorkClear (s : State) : Prop :=
  s.busy = false → s.work = Working.zero

/-- The result file holds a canonical value, below P (R87). -/
abbrev ResultCanonical (s : State) : Prop :=
  val s.fileR < Config.prime

/-- The same but for the working registers, which no transfer can observe (R35). -/
abbrev SameButWork (s t : State) : Prop :=
  { s with work := Working.zero } = { t with work := Working.zero }

/-- The same control state: what decides when things happen (R226). The data registers, CTRL, the flags OVR and ACCERR,
the codes and the answers may differ. -/
abbrev SameTiming (s t : State) : Prop :=
  s.busy = t.busy ∧ s.done = t.done ∧ s.pendOp = t.pendOp ∧ s.cyclesLeft = t.cyclesLeft ∧ s.inputs = t.inputs

end Machine
end Sys2Proof
end

