-- ==== Sys2Proof/Certificates/Slice0/Obligations.lean ====
section
/-! DEFINITION. The statements for the provers. Each docstring names the rule of spec/ it formalises.

Three kinds of clause are the model's own choice and no rule of the spec: the value of the counter `cyclesLeft` (log entry
3), the contents of `work` while a command is in flight (log entry 4), and the absent read data of a legal write's
answer (log entry 5). -/

open Sys2Proof Sys2Proof.Machine

/-! ### Encoding -/

/-- R82: the seven words, bit by bit, decode to their commands; the words with opcode 0 and 8 to 15 and no other bit set
are illegal, and so is every word with another bit set. -/
def Obligations.OpcodeWordsDecodeToTheirCommands : Prop :=
  (decode 0b00000000000000000000000000000001#32 = .ok .montMul ∧
   decode 0b00000000000000000000000000000010#32 = .ok .fieldRed ∧
   decode 0b00000000000000000000000000000011#32 = .ok .x25519 ∧
   decode 0b00000000000000000000000000000100#32 = .ok .x25519Base ∧
   decode 0b00000000000000000000000000000101#32 = .ok .md5Init ∧
   decode 0b00000000000000000000000000000110#32 = .ok .md5Block ∧
   decode 0b00000000000000000000000000000111#32 = .ok .zeroize) ∧
  decode 0x00000000#32 = .error .unknownOpcode ∧
  (∀ n : Nat, 8 ≤ n → n ≤ 15 → decode (BitVec.ofNat 32 n) = .error .unknownOpcode) ∧
  (∀ w : Word, w.toNat / 16 ≠ 0 → decode w = .error .reservedBitsSet)

/-- R80, R82, R83: decode and encode agree in both directions, on words and on any list of bytes. So exactly the seven
encoded words decode, each to its command. -/
def Obligations.DecodeAndEncodeAgreeBothWays : Prop :=
  (∀ (w : Word) (i : Instr), decode w = .ok i ↔ w = encode i) ∧
  (∀ (bytes : List Byte) (i : Instr), decodeBytes bytes = .ok i ↔ bytes = encodeBytes i) ∧
  (∀ (w : Word) (i : Instr), decodeTableWord 32 w.toNat = some i ↔ w = encode i)

/-- R80: a word is legal exactly if bits 31:4 are 0 and bits 3:0 hold 1 to 7, and the command it decodes to has that
opcode. -/
def Obligations.WordIsLegalIffReservedZeroAndOpcodeOneToSeven : Prop :=
  ∀ w : Word,
    ((∃ i, decode w = .ok i) ↔ w.toNat / 16 = 0 ∧ 1 ≤ w.toNat % 16 ∧ w.toNat % 16 ≤ 7) ∧
    ∀ i, decode w = .ok i → (opcodeOf i).toNat = w.toNat % 16

/-! ### Reset -/

/-- R39: at reset every element of R20's record and every working register is zero, no command is in flight, and irq is
0. -/
def Obligations.ResetLeavesEveryElementZero : Prop :=
  State.reset.irqen = false ∧ State.reset.lowchk = false ∧
  State.reset.busy = false ∧ State.reset.done = false ∧ State.reset.ovr = false ∧ State.reset.accerr = false ∧
  State.reset.err = 0#4 ∧
  (∀ j : Fin 8, State.reset.fileA[j] = 0#32 ∧ State.reset.fileB[j] = 0#32 ∧ State.reset.fileR[j] = 0#32) ∧
  (∀ j : Fin 4, State.reset.dig[j] = 0#32) ∧ (∀ j : Fin 16, State.reset.blk[j] = 0#32) ∧
  State.reset.pendOp = none ∧ State.reset.pendLowchk = false ∧
  State.reset.work = Working.zero ∧ irq State.reset = false

/-- R210, R211: an edge with rst_n = 0 gives the reset state whatever the block was doing, ignores the transfer of its
cycle and a completion that is due, and answers a presented transfer with rdata 0 and no error. The next cycle's ports
come next. -/
def Obligations.ResetEdgeOverridesTransferAndCompletion : Prop :=
  ∀ (s : State) (bus : Option Transfer) (ps : List Pins), s.inputs = { rstN := false, bus := bus } :: ps →
    ∃ t, step s = .next t ∧ t = { State.reset with inputs := ps, resp := t.resp } ∧
      (bus = none → t.resp = none) ∧
      (bus ≠ none → t.resp = some { rdata := some 0#32, err := false })

/-! ### One step -/

/-- R172, R186: an edge out of reset. If the command in flight is due, the step is the transfer of the cycle on the
state before the completion and then `exec` of the command; while idle, it is the transfer alone; while a command is in
flight and not due, it is the transfer, one cycle less to go, and nothing else but the hidden working registers. -/
def Obligations.StepIsTransferThenCompletion : Prop :=
  ∀ (s : State) (bus : Option Transfer) (ps : List Pins), s.inputs = { rstN := true, bus := bus } :: ps →
    (s.busy = false → step s = .next (busCycle bus { s with inputs := ps })) ∧
    (∀ i, s.busy = true → s.pendOp = some i → s.cyclesLeft ≤ 1 →
      step s = exec i (busCycle bus { s with inputs := ps })) ∧
    (s.busy = true → 1 < s.cyclesLeft → ∃ k,
      step s = .next (busCycle bus { s with inputs := ps, cyclesLeft := s.cyclesLeft - 1, work := k }))

/-- The step runs the decoded command: in the state that holds the word `w` as accepted and due, the next step is
`exec` of the command `w` decodes to, on the state right after the accept, with the inputs as they were and no transfer
answered. -/
def Obligations.StepRunsTheDecodedCommand : Prop :=
  ∀ (s : State) (w : Word) (i : Instr), decode w = .ok i →
    (s.withFetchWord 32 w.toNat).pendOp = some i ∧ (s.withFetchWord 32 w.toNat).busy = true ∧
    step (s.withFetchWord 32 w.toNat) = exec i (respond none { accept i s with cyclesLeft := 1 })

/-! ### The sequencer -/

/-- R174 (R170, R171, R173): the whole CMD write, with its tests in order. A transfer to CMD that is not 4 bytes wide
or not aligned never reaches it. -/
def Obligations.CommandWriteFollowsItsTests : Prop :=
  ∀ (s : State) (w : Word),
    (s.busy = true → commandWrite w s = { s with ovr := true }) ∧
    (s.busy = false → (w.toNat / 16 ≠ 0 ∨ w.toNat % 16 = 0 ∨ 8 ≤ w.toNat % 16) →
      commandWrite w s = { s with done := true, err := 1#4 }) ∧
    (s.busy = false → w.toNat / 16 = 0 → 1 ≤ w.toNat % 16 → w.toNat % 16 < 8 →
      ∃ i k, (opcodeOf i).toNat = w.toNat % 16 ∧
        commandWrite w s = { s with
          busy := true, done := false, err := 0#4, pendOp := some i, pendLowchk := s.lowchk
          cyclesLeft := Config.latency i, work := k }) ∧
    (busTransfer (writeTransfer 0x00C#12 w) s =
      { commandWrite w s with resp := some { rdata := none, err := false } }) ∧
    (∀ t : Transfer, 0x00C ≤ t.addr.toNat → t.addr.toNat < 0x010 → (t.size ≠ 2#2 ∨ t.addr.toNat % 4 ≠ 0) →
      busTransfer t s = { s with resp := some { rdata := some 0#32, err := true } })

/-- R172, R37: every command completes, in every state; a completion clears BUSY and pend_op, sets DONE, clears every
working register, and leaves CTRL, OVR, ACCERR and the latched LOWCHK as they were. -/
def Obligations.CompletionBookkeepingOfEveryCommand : Prop :=
  ∀ (i : Instr) (s : State), ∃ t, exec i s = .next t ∧
    t.busy = false ∧ t.done = true ∧ t.pendOp = none ∧ t.cyclesLeft = 0 ∧ t.work = Working.zero ∧
    t.irqen = s.irqen ∧ t.lowchk = s.lowchk ∧ t.ovr = s.ovr ∧ t.accerr = s.accerr ∧ t.pendLowchk = s.pendLowchk ∧
    t.resp = s.resp ∧ t.inputs = s.inputs

/-- R180: a completion reports NONE or INVALID_KEY, and INVALID_KEY only for a scalar multiplication with LOWCHK
latched, with R zero. -/
def Obligations.CompletionErrIsNoneOrInvalidKey : Prop :=
  ∀ (i : Instr) (s t : State), exec i s = .next t →
    t.err = 0#4 ∨
    (t.err = 2#4 ∧ s.pendLowchk = true ∧ (i = .x25519 ∨ i = .x25519Base) ∧ val t.fileR = 0)

/-- R64: each command writes only its own files, and what it writes depends only on the files it reads (and, for the
scalar multiplications, on the latched LOWCHK). -/
def Obligations.CommandsReadAndWriteOnlyTheirFiles : Prop :=
  (∀ (i : Instr) (s t : State), exec i s = .next t →
    (i ≠ .zeroize → t.fileA = s.fileA ∧ t.fileB = s.fileB ∧ t.blk = s.blk) ∧
    (i = .md5Init ∨ i = .md5Block → t.fileR = s.fileR) ∧
    (i = .montMul ∨ i = .fieldRed ∨ i = .x25519 ∨ i = .x25519Base → t.dig = s.dig)) ∧
  (∀ (i : Instr) (s s' t t' : State), exec i s = .next t → exec i s' = .next t' →
    (i = .montMul ∨ i = .fieldRed → s.fileA = s'.fileA → s.fileB = s'.fileB → t.fileR = t'.fileR) ∧
    (i = .x25519 → s.fileA = s'.fileA → s.fileB = s'.fileB → s.pendLowchk = s'.pendLowchk →
      t.fileR = t'.fileR ∧ t.err = t'.err) ∧
    (i = .x25519Base → s.fileA = s'.fileA → s.pendLowchk = s'.pendLowchk → t.fileR = t'.fileR ∧ t.err = t'.err) ∧
    (i = .md5Init → t.dig = t'.dig) ∧
    (i = .md5Block → s.dig = s'.dig → s.blk = s'.blk → t.dig = t'.dig))

/-! ### Field commands -/

/-- R100: MONT_MUL completes in every state, R holds the product modulo P, and nothing else changes but BUSY, DONE,
ERR, pend_op and the hidden counter and working registers. -/
def Obligations.MontMulWritesTheProductModP : Prop :=
  ∀ s : State, ∃ r : Vector Word 8,
    exec .montMul s = .next { s with
      fileR := r, err := 0#4, busy := false, done := true, pendOp := none, cyclesLeft := 0, work := Working.zero } ∧
    val r = val s.fileA * val s.fileB % (2 ^ 255 - 19) ∧ r[7].getLsbD 31 = false

/-- R101: MONT_MUL depends on its inputs only modulo P, is commutative, and keeps A and B. -/
def Obligations.MontMulDependsOnlyOnResiduesAndCommutes : Prop :=
  ∀ s s' : State,
    ((val s.fileA ≡ val s'.fileA [MOD Config.prime] ∧ val s.fileB ≡ val s'.fileB [MOD Config.prime]) ∨
     (val s.fileA ≡ val s'.fileB [MOD Config.prime] ∧ val s.fileB ≡ val s'.fileA [MOD Config.prime])) →
    ∃ t t', exec .montMul s = .next t ∧ exec .montMul s' = .next t' ∧ t.fileR = t'.fileR ∧
      t.fileA = s.fileA ∧ t.fileB = s.fileB

/-- R105: FIELD_RED completes in every state, R holds the 512-bit operand modulo P, and nothing else changes but BUSY,
DONE, ERR, pend_op and the hidden counter and working registers. -/
def Obligations.FieldRedWritesTheOperandModP : Prop :=
  ∀ s : State, ∃ r : Vector Word 8,
    exec .fieldRed s = .next { s with
      fileR := r, err := 0#4, busy := false, done := true, pendOp := none, cyclesLeft := 0, work := Working.zero } ∧
    val r = (val s.fileA + 2 ^ 256 * val s.fileB) % (2 ^ 255 - 19) ∧ r[7].getLsbD 31 = false

/-- R106: FIELD_RED on the two halves of a product writes the R that MONT_MUL writes. -/
def Obligations.FieldRedOfAProductAgreesWithMontMul : Prop :=
  ∀ s s' : State,
    s'.fileA = words8 (val s.fileA * val s.fileB % 2 ^ 256) →
    s'.fileB = words8 (val s.fileA * val s.fileB / 2 ^ 256) →
    ∃ t t', exec .montMul s = .next t ∧ exec .fieldRed s' = .next t' ∧ t.fileR = t'.fileR

/-- R9: the field inverse is the (P - 2)-th power modulo P, and the inverse of 0 is 0; the field operations are the
residues of the exact integer operations. -/
def Obligations.FieldOperationsAreExactResidues : Prop :=
  (∀ z, finv z = z ^ (Config.prime - 2) % Config.prime) ∧ finv 0 = 0 ∧
  (∀ x y, (fadd x y : Int) = (x + y : Int) % (Config.prime : Int)) ∧
  (∀ x y, (fsub x y : Int) = (x - y : Int) % (Config.prime : Int)) ∧
  (∀ x y, (fmul x y : Int) = (x * y : Int) % (Config.prime : Int))

/-! ### Scalar multiplication -/

/-- R120, R124, R126: X25519 and X25519_BASE complete in every state. The result is the ladder's, below P; with LOWCHK
latched and a zero result, ERR is 2 and R is 0, otherwise ERR is 0 and R holds the result. Nothing else changes but
BUSY, DONE, pend_op and the hidden counter and working registers. -/
def Obligations.ScalarMultiplicationResultAndLowOrderCheck : Prop :=
  ∀ s : State,
    (∃ (r : Vector Word 8) (e : BitVec 4),
      exec .x25519 s = .next { s with
        fileR := r, err := e, busy := false, done := true, pendOp := none, cyclesLeft := 0, work := Working.zero } ∧
      val r = ladder (clamp (val s.fileA)) (val s.fileB % 2 ^ 255 % Config.prime) ∧ val r < 2 ^ 255 - 19 ∧
      (s.pendLowchk = true ∧ val r = 0 → e = 2#4) ∧ (s.pendLowchk = false ∨ val r ≠ 0 → e = 0#4)) ∧
    (∃ (r : Vector Word 8) (e : BitVec 4),
      exec .x25519Base s = .next { s with
        fileR := r, err := e, busy := false, done := true, pendOp := none, cyclesLeft := 0, work := Working.zero } ∧
      val r = ladder (clamp (val s.fileA)) 9 ∧ val r < 2 ^ 255 - 19 ∧
      (s.pendLowchk = true ∧ val r = 0 → e = 2#4) ∧ (s.pendLowchk = false ∨ val r ≠ 0 → e = 0#4))

/-- R124, corner case: X25519_BASE is exactly X25519 with B = 9, whatever B holds. -/
def Obligations.X25519BaseIsX25519WithBaseNine : Prop :=
  ∀ s t : State, exec .x25519 { s with fileB := words8 9 } = .next t →
    exec .x25519Base s = .next { t with fileB := s.fileB }

/-- R121: clamping, bit by bit and word by word; it is idempotent, and A is not written. -/
def Obligations.ClampClearsAndSetsItsBits : Prop :=
  (∀ v, v < 2 ^ 256 → ∀ n, (clamp v).testBit n =
    (if n < 3 ∨ n = 255 then false else if n = 254 then true else v.testBit n)) ∧
  (∀ v, v < 2 ^ 256 → clamp (clamp v) = clamp v) ∧
  (∀ f : Vector Word 8, clamp (val f) =
    val ((f.set 0 (f[0] &&& 0xFFFFFFF8#32)).set 7 ((f[7] &&& 0x7FFFFFFF#32) ||| 0x40000000#32))) ∧
  (∀ (i : Instr) (s t : State), i = .x25519 ∨ i = .x25519Base → exec i s = .next t → t.fileA = s.fileA)

/-- R123: bit 255 of B is ignored, and a value from P up to 2^255 is reduced; a value below P stands for itself. -/
def Obligations.PointDecodingIgnoresBit255AndReduces : Prop :=
  (∀ v, v < 2 ^ 255 → decodeU (v + 2 ^ 255) = decodeU v) ∧
  (∀ v, v + Config.prime < 2 ^ 255 → decodeU (v + Config.prime) = v) ∧
  (∀ v, v < Config.prime → decodeU v = v) ∧
  (∀ s s' t t' : State, s'.fileA = s.fileA → s'.pendLowchk = s.pendLowchk →
    (∀ j : Fin 8, j.val ≠ 7 → s'.fileB[j] = s.fileB[j]) → s'.fileB[7] = s.fileB[7] ^^^ 0x80000000#32 →
    exec .x25519 s = .next t → exec .x25519 s' = .next t' → t'.fileR = t.fileR ∧ t'.err = t.err)

/-- R122: one iteration of the ladder, as equations in the field: with (x2, z2) and (x3, z3) exchanged if the swap bit
and the scalar bit differ, the formulas of the rule; the swap bit becomes the scalar bit. -/
def Obligations.LadderIterationFollowsItsFormulas : Prop :=
  ∀ (x1 : Nat) (kt : Bool) (v : LadderVars),
    let x2 : ZMod Config.prime := (if v.swap = kt then v.x2 else v.x3 : Nat)
    let z2 : ZMod Config.prime := (if v.swap = kt then v.z2 else v.z3 : Nat)
    let x3 : ZMod Config.prime := (if v.swap = kt then v.x3 else v.x2 : Nat)
    let z3 : ZMod Config.prime := (if v.swap = kt then v.z3 else v.z2 : Nat)
    let te := (x2 + z2) ^ 2 - (x2 - z2) ^ 2
    let da := (x3 - z3) * (x2 + z2)
    let cb := (x3 + z3) * (x2 - z2)
    ((ladderStep x1 kt v).x2 : ZMod Config.prime) = (x2 + z2) ^ 2 * (x2 - z2) ^ 2 ∧
    ((ladderStep x1 kt v).z2 : ZMod Config.prime) = te * ((x2 + z2) ^ 2 + 121665 * te) ∧
    ((ladderStep x1 kt v).x3 : ZMod Config.prime) = (da + cb) ^ 2 ∧
    ((ladderStep x1 kt v).z3 : ZMod Config.prime) = x1 * (da - cb) ^ 2 ∧
    (ladderStep x1 kt v).x2 < Config.prime ∧ (ladderStep x1 kt v).z2 < Config.prime ∧
    (ladderStep x1 kt v).x3 < Config.prime ∧ (ladderStep x1 kt v).z3 < Config.prime ∧
    (ladderStep x1 kt v).swap = kt

/-- R120, corner cases: for every scalar in A, the points u = 0, 1 and P - 1 (as B is decoded) give 0, so R is 0, and
ERR is INVALID_KEY exactly if LOWCHK was latched. -/
def Obligations.LowOrderPointsGiveZeroForEveryScalar : Prop :=
  ∀ s : State,
    (decodeU (val s.fileB) = 0 ∨ decodeU (val s.fileB) = 1 ∨ decodeU (val s.fileB) = Config.prime - 1) →
    ∃ t, exec .x25519 s = .next t ∧ val t.fileR = 0 ∧ t.err = (if s.pendLowchk then 2#4 else 0#4)

/-- R128: each of the four listed inputs, also with bit 255 set, or plus P where that stays below 2^255, gives 0 for
every clamped scalar. -/
def Obligations.ListedLowOrderInputsGiveZero : Prop :=
  ∀ v u w : Nat, v < 2 ^ 256 →
    (u = 0 ∨ u = 1 ∨ u = Config.prime - 1 ∨
      u = 0x00b8495f16056286fdb1329ceb8d09da6ac49ff1fae35616aeb8413b7c7aebe0) →
    (w = u ∨ w = u + 2 ^ 255 ∨ (w = u + Config.prime ∧ w < 2 ^ 255)) →
    ladder (clamp v) (decodeU w) = 0

/-! ### MD5 -/

/-- R140, R142: MD5_INIT completes in every state, DIG holds the initial value, and nothing else changes but BUSY,
DONE, ERR, pend_op and the hidden counter and working registers. -/
def Obligations.Md5InitWritesTheInitialValue : Prop :=
  ∀ s : State, exec .md5Init s = .next { s with
    dig := #v[0x67452301#32, 0xEFCDAB89#32, 0x98BADCFE#32, 0x10325476#32]
    err := 0#4, busy := false, done := true, pendOp := none, cyclesLeft := 0, work := Working.zero }

/-- R141, R147 (with R143-R145): MD5_BLOCK completes in every state. There is a run of the round registers from the
chaining value in DIG through the 64 steps, each as R147 says with the functions of R143, the message words of R144 and
the rotations of R145, and DIG receives the chaining value plus the last registers. Nothing else changes but BUSY, DONE,
ERR, pend_op and the hidden counter and working registers. -/
def Obligations.Md5BlockCompressesInSixtyFourSteps : Prop :=
  ∀ s : State, ∃ (v : Nat → Chain) (dig : Vector Word 4),
    exec .md5Block s = .next { s with
      dig := dig, err := 0#4, busy := false, done := true, pendOp := none, cyclesLeft := 0, work := Working.zero } ∧
    v 0 = { a := s.dig[0], b := s.dig[1], c := s.dig[2], d := s.dig[3] } ∧
    (∀ i, i < 64 →
      (v (i + 1)).a = (v i).d ∧ (v (i + 1)).d = (v i).c ∧ (v (i + 1)).c = (v i).b ∧
      ∃ (f : Word) (g : Fin 16) (rot : Nat),
        (i ≤ 15 → f = ((v i).b &&& (v i).c) ||| (~~~(v i).b &&& (v i).d) ∧ g.val = i ∧
          rot = [7, 12, 17, 22].getD (i % 4) 0) ∧
        (16 ≤ i → i ≤ 31 → f = ((v i).b &&& (v i).d) ||| ((v i).c &&& ~~~(v i).d) ∧ g.val = (5 * i + 1) % 16 ∧
          rot = [5, 9, 14, 20].getD (i % 4) 0) ∧
        (32 ≤ i → i ≤ 47 → f = (v i).b ^^^ (v i).c ^^^ (v i).d ∧ g.val = (3 * i + 5) % 16 ∧
          rot = [4, 11, 16, 23].getD (i % 4) 0) ∧
        (48 ≤ i → f = (v i).c ^^^ ((v i).b ||| ~~~(v i).d) ∧ g.val = 7 * i % 16 ∧
          rot = [6, 10, 15, 21].getD (i % 4) 0) ∧
        (v (i + 1)).b = (v i).b + ((v i).a + f + sineConst i + s.blk[g]).rotateLeft rot) ∧
    dig[0] = s.dig[0] + (v 64).a ∧ dig[1] = s.dig[1] + (v 64).b ∧
    dig[2] = s.dig[2] + (v 64).c ∧ dig[3] = s.dig[3] + (v 64).d

/-- R146: the 64 additive constants are those of the table, and there are no more. -/
def Obligations.Md5AdditiveConstantsAreTheTable : Prop :=
  sineTable.length = 64 ∧
  (List.range 64).map sineConst =
  ([0xd76aa478#32, 0xe8c7b756#32, 0x242070db#32, 0xc1bdceee#32, 0xf57c0faf#32, 0x4787c62a#32, 0xa8304613#32, 0xfd469501#32] ++
   [0x698098d8#32, 0x8b44f7af#32, 0xffff5bb1#32, 0x895cd7be#32, 0x6b901122#32, 0xfd987193#32, 0xa679438e#32, 0x49b40821#32] ++
   [0xf61e2562#32, 0xc040b340#32, 0x265e5a51#32, 0xe9b6c7aa#32, 0xd62f105d#32, 0x02441453#32, 0xd8a1e681#32, 0xe7d3fbc8#32] ++
   [0x21e1cde6#32, 0xc33707d6#32, 0xf4d50d87#32, 0x455a14ed#32, 0xa9e3e905#32, 0xfcefa3f8#32, 0x676f02d9#32, 0x8d2a4c8a#32] ++
   [0xfffa3942#32, 0x8771f681#32, 0x6d9d6122#32, 0xfde5380c#32, 0xa4beea44#32, 0x4bdecfa9#32, 0xf6bb4b60#32, 0xbebfbc70#32] ++
   [0x289b7ec6#32, 0xeaa127fa#32, 0xd4ef3085#32, 0x04881d05#32, 0xd9d4d039#32, 0xe6db99e5#32, 0x1fa27cf8#32, 0xc4ac5665#32] ++
   [0xf4292244#32, 0x432aff97#32, 0xab9423a7#32, 0xfc93a039#32, 0x655b59c3#32, 0x8f0ccc92#32, 0xffeff47d#32, 0x85845dd1#32] ++
   [0x6fa87e4f#32, 0xfe2ce6e0#32, 0xa3014314#32, 0x4e0811a1#32, 0xf7537e82#32, 0xbd3af235#32, 0x2ad7d2bb#32, 0xeb86d391#32] : List Word)

/-- R150 and the block count of R149: the padded message is the message, 0x80, the least number of zero bytes that
makes the length before the last eight bytes 56 modulo 64, and the bit length modulo 2^64; it is floor((L + 8) / 64) + 1
blocks long. -/
def Obligations.Md5PaddingFillsWholeBlocks : Prop :=
  ∀ m : List Byte, ∃ z : Nat, ∃ len : List Byte,
    md5Pad m = m ++ [0x80#8] ++ List.replicate z 0x00#8 ++ len ∧
    (m.length + 1 + z) % 64 = 56 ∧ (∀ y, (m.length + 1 + y) % 64 = 56 → z ≤ y) ∧
    len.length = 8 ∧ le len = 8 * m.length % 2 ^ 64 ∧
    (md5Pad m).length % 64 = 0 ∧ (md5Pad m).length / 64 = (m.length + 8) / 64 + 1

/-! ### ZEROIZE -/

/-- R175: ZEROIZE completes in every state, every word of the five files is zero as after reset, ERR is 0, and CTRL,
OVR and ACCERR, like everything else but BUSY, DONE, pend_op and the hidden counter and working registers, stay. -/
def Obligations.ZeroizeClearsEveryDataRegister : Prop :=
  ∀ s : State, ∃ t, exec .zeroize s = .next t ∧
    t = { s with
      fileA := State.reset.fileA, fileB := State.reset.fileB, fileR := State.reset.fileR
      dig := State.reset.dig, blk := State.reset.blk
      err := 0#4, busy := false, done := true, pendOp := none, cyclesLeft := 0, work := Working.zero } ∧
    (∀ j : Fin 8, t.fileA[j] = 0#32 ∧ t.fileB[j] = 0#32 ∧ t.fileR[j] = 0#32) ∧
    (∀ j : Fin 4, t.dig[j] = 0#32) ∧ ∀ j : Fin 16, t.blk[j] = 0#32

/-! ### Bus transfers -/

/-- R53: every register's offset, and which aligned offsets are reserved. -/
def Obligations.AddressMapNamesEveryRegister : Prop :=
  (∀ (reg : Reg) (off : BitVec 12), reg.offset = some off → regAt off = reg ∧ off.toNat % 4 = 0) ∧
  (∀ off : BitVec 12, off.toNat % 4 = 0 →
    (regAt off = .reserved ↔
      (0x010 ≤ off.toNat ∧ off.toNat ≤ 0x03C) ∨ (0x0B0 ≤ off.toNat ∧ off.toNat ≤ 0x0FC) ∨ 0x140 ≤ off.toNat) ∧
    (regAt off ≠ .reserved → (regAt off).offset = some off))

/-- R56, R62: a transfer is legal exactly if it is 4 bytes wide and 4-aligned. An illegal one answers the error response
with rdata 0 and changes nothing, at every offset, busy or not; a legal one answers no error. -/
def Obligations.IllegalTransferAnswersErrorAndChangesNothing : Prop :=
  ∀ (s : State) (t : Transfer),
    ((t.size ≠ 2#2 ∨ t.addr.toNat % 4 ≠ 0) →
      busTransfer t s = { s with resp := some { rdata := some 0#32, err := true } }) ∧
    (t.size = 2#2 → t.addr.toNat % 4 = 0 →
      ∃ rdata, (busTransfer t s).resp = some { rdata := rdata, err := false } ∧ (t.we = false → rdata ≠ none))

/-- R54: what a legal read returns at each offset, and that it changes nothing but its answer, except that a data
register read while busy sets ACCERR. -/
def Obligations.LegalReadReturnsTheRegister : Prop :=
  ∀ (s : State) (t : Transfer), t.we = false → t.size = 2#2 →
    let answer (v : Word) : State := { s with resp := some { rdata := some v, err := false } }
    let lockedAnswer : State := { s with accerr := true, resp := some { rdata := some 0#32, err := false } }
    (t.addr.toNat = 0x000 → busTransfer t s = answer 0x57430001#32) ∧
    (t.addr.toNat = 0x004 → ∃ v, busTransfer t s = answer v ∧
      v.toNat = s.irqen.toNat + 2 * s.lowchk.toNat) ∧
    (t.addr.toNat = 0x008 → ∃ v, busTransfer t s = answer v ∧
      v.toNat = s.busy.toNat + 2 * s.done.toNat + 4 * s.ovr.toNat + 8 * s.accerr.toNat + 16 * s.err.toNat) ∧
    (t.addr.toNat = 0x00C → busTransfer t s = answer 0#32) ∧
    (∀ j : Fin 8, t.addr.toNat = 0x040 + 4 * j.val →
      busTransfer t s = if s.busy then lockedAnswer else answer s.fileA[j]) ∧
    (∀ j : Fin 8, t.addr.toNat = 0x060 + 4 * j.val →
      busTransfer t s = if s.busy then lockedAnswer else answer s.fileB[j]) ∧
    (∀ j : Fin 8, t.addr.toNat = 0x080 + 4 * j.val →
      busTransfer t s = if s.busy then lockedAnswer else answer s.fileR[j]) ∧
    (∀ j : Fin 4, t.addr.toNat = 0x0A0 + 4 * j.val →
      busTransfer t s = if s.busy then lockedAnswer else answer s.dig[j]) ∧
    (∀ j : Fin 16, t.addr.toNat = 0x100 + 4 * j.val →
      busTransfer t s = if s.busy then lockedAnswer else answer s.blk[j]) ∧
    (t.addr.toNat % 4 = 0 →
      (0x010 ≤ t.addr.toNat ∧ t.addr.toNat ≤ 0x03C) ∨ (0x0B0 ≤ t.addr.toNat ∧ t.addr.toNat ≤ 0x0FC) ∨
        0x140 ≤ t.addr.toNat →
      busTransfer t s = answer 0#32)

/-- R55: what a legal write does at each offset, and that it changes nothing else but its answer. -/
def Obligations.LegalWriteActsOnItsRegisterOnly : Prop :=
  ∀ (s : State) (t : Transfer), t.we = true → t.size = 2#2 →
    let answer (u : State) : State := { u with resp := some { rdata := none, err := false } }
    let lockedAnswer : State := answer { s with accerr := true }
    (t.addr.toNat = 0x000 → busTransfer t s = answer s) ∧
    (t.addr.toNat = 0x004 →
      busTransfer t s = answer { s with irqen := t.wdata.getLsbD 0, lowchk := t.wdata.getLsbD 1 }) ∧
    (t.addr.toNat = 0x008 → busTransfer t s = answer { s with
      done := s.done && !t.wdata.getLsbD 1
      ovr := s.ovr && !t.wdata.getLsbD 2
      accerr := s.accerr && !t.wdata.getLsbD 3 }) ∧
    (t.addr.toNat = 0x00C → busTransfer t s = answer (commandWrite t.wdata s)) ∧
    (∀ j : Fin 8, t.addr.toNat = 0x040 + 4 * j.val →
      busTransfer t s = if s.busy then lockedAnswer else answer { s with fileA := s.fileA.set j t.wdata }) ∧
    (∀ j : Fin 8, t.addr.toNat = 0x060 + 4 * j.val →
      busTransfer t s = if s.busy then lockedAnswer else answer { s with fileB := s.fileB.set j t.wdata }) ∧
    (∀ j : Fin 8, t.addr.toNat = 0x080 + 4 * j.val →
      busTransfer t s = if s.busy then lockedAnswer else answer s) ∧
    (∀ j : Fin 4, t.addr.toNat = 0x0A0 + 4 * j.val →
      busTransfer t s = if s.busy then lockedAnswer else answer { s with dig := s.dig.set j t.wdata }) ∧
    (∀ j : Fin 16, t.addr.toNat = 0x100 + 4 * j.val →
      busTransfer t s = if s.busy then lockedAnswer else answer { s with blk := s.blk.set j t.wdata }) ∧
    (t.addr.toNat % 4 = 0 →
      (0x010 ≤ t.addr.toNat ∧ t.addr.toNat ≤ 0x03C) ∨ (0x0B0 ≤ t.addr.toNat ∧ t.addr.toNat ≤ 0x0FC) ∨
        0x140 ≤ t.addr.toNat →
      busTransfer t s = answer s)

/-- R58: while busy, a legal transfer to a data register answers no error, with 0 for a read, and sets ACCERR and
changes nothing else; and no transfer at all changes a data register. A legal transfer to any other offset but STATUS
leaves ACCERR as it was. -/
def Obligations.BusyLockKeepsEveryDataRegister : Prop :=
  ∀ (s : State) (t : Transfer), s.busy = true →
    (t.size = 2#2 → t.addr.toNat % 4 = 0 →
      ((0x040 ≤ t.addr.toNat ∧ t.addr.toNat < 0x0B0) ∨ (0x100 ≤ t.addr.toNat ∧ t.addr.toNat < 0x140)) →
      busTransfer t s = { s with
        accerr := true, resp := some { rdata := if t.we then none else some 0#32, err := false } }) ∧
    (t.size = 2#2 → t.addr.toNat % 4 = 0 → t.addr.toNat ≠ 0x008 →
      ¬ ((0x040 ≤ t.addr.toNat ∧ t.addr.toNat < 0x0B0) ∨ (0x100 ≤ t.addr.toNat ∧ t.addr.toNat < 0x140)) →
      (busTransfer t s).accerr = s.accerr) ∧
    ((busTransfer t s).fileA = s.fileA ∧ (busTransfer t s).fileB = s.fileB ∧ (busTransfer t s).fileR = s.fileR ∧
      (busTransfer t s).dig = s.dig ∧ (busTransfer t s).blk = s.blk)

/-- R57: reserved offsets read 0 and ignore writes, without an error or a flag, busy or not; the reserved bits of CTRL
and STATUS read 0 and ignore what is written to them. -/
def Obligations.ReservedOffsetsAndBitsReadZeroAndIgnoreWrites : Prop :=
  (∀ (s : State) (t : Transfer), t.size = 2#2 → t.addr.toNat % 4 = 0 →
    ((0x010 ≤ t.addr.toNat ∧ t.addr.toNat ≤ 0x03C) ∨ (0x0B0 ≤ t.addr.toNat ∧ t.addr.toNat ≤ 0x0FC) ∨
      (0x140 ≤ t.addr.toNat ∧ t.addr.toNat ≤ 0xFFC)) →
    busTransfer t s = { s with resp := some { rdata := if t.we then none else some 0#32, err := false } }) ∧
  (∀ s : State, (readReg s .ctrl).toNat < 4 ∧ (readReg s .status).toNat < 256) ∧
  (∀ (s : State) (w w' : Word), w.toNat % 4 = w'.toNat % 4 →
    busTransfer (writeTransfer 0x004#12 w) s = busTransfer (writeTransfer 0x004#12 w') s) ∧
  (∀ (s : State) (w w' : Word), w.toNat / 2 % 8 = w'.toNat / 2 % 8 →
    busTransfer (writeTransfer 0x008#12 w) s = busTransfer (writeTransfer 0x008#12 w') s)

/-- R27: a write of STATUS clears DONE, OVR and ACCERR where it writes 1 and leaves them where it writes 0; it changes
nothing else but the bus's answer. -/
def Obligations.StatusWriteClearsWhereOneIsWritten : Prop :=
  ∀ (s : State) (w : Word), ∃ t, busTransfer (writeTransfer 0x008#12 w) s = t ∧
    t.done = (s.done && !w.getLsbD 1) ∧ t.ovr = (s.ovr && !w.getLsbD 2) ∧ t.accerr = (s.accerr && !w.getLsbD 3) ∧
    t = { s with done := t.done, ovr := t.ovr, accerr := t.accerr, resp := some { rdata := none, err := false } }

/-- R65 (a), R224: while idle, a read right after a legal write of a word of A, B, DIG or BLK returns the word, and a
read of CTRL right after its write returns the two bits written. After a legal write of any register but CMD, which
starts or rejects a command, a read of any other register returns what it would have returned before; so does a read of
the same register if it is ID, a word of R or reserved, which ignore the write. -/
def Obligations.ReadAfterWriteReturnsTheWord : Prop :=
  ∀ (s : State) (off off' : BitVec 12) (w : Word), s.busy = false → off.toNat % 4 = 0 → off'.toNat % 4 = 0 →
    let after := busTransfer (writeTransfer off w) s
    let inR := 0x080 ≤ off.toNat ∧ off.toNat < 0x0A0
    let inFiles := (0x040 ≤ off.toNat ∧ off.toNat < 0x0B0) ∨ (0x100 ≤ off.toNat ∧ off.toNat < 0x140)
    let ignores := off = 0x000#12 ∨ inR ∨ (0x010 ≤ off.toNat ∧ off.toNat < 0x100 ∧ ¬ inFiles) ∨ 0x140 ≤ off.toNat
    (inFiles → ¬ inR → (busTransfer (readTransfer off) after).resp = some { rdata := some w, err := false }) ∧
    (off = 0x004#12 → ∃ v : Word, (busTransfer (readTransfer off) after).resp = some { rdata := some v, err := false } ∧
      v.toNat = w.toNat % 4) ∧
    (off ≠ 0x00C#12 → off' ≠ off ∨ ignores →
      (busTransfer (readTransfer off') after).resp = (busTransfer (readTransfer off') s).resp)

/-- R59: writing the same word twice to A, B, DIG, BLK, CTRL or STATUS has the effect of writing it once, and reading a
register twice returns the same value; a write to CMD is not idempotent. -/
def Obligations.RepeatedTransfersHaveTheEffectOfOne : Prop :=
  (∀ (s : State) (off : BitVec 12) (w : Word),
    (off = 0x004#12 ∨ off = 0x008#12 ∨ (0x040 ≤ off.toNat ∧ off.toNat < 0x0B0) ∨ 0x100 ≤ off.toNat) →
    busTransfer (writeTransfer off w) (busTransfer (writeTransfer off w) s) = busTransfer (writeTransfer off w) s) ∧
  (∀ (s : State) (off : BitVec 12),
    (busTransfer (readTransfer off) (busTransfer (readTransfer off) s)).resp =
      (busTransfer (readTransfer off) s).resp) ∧
  (∃ (s : State) (w : Word), busTransfer (writeTransfer 0x00C#12 w) (busTransfer (writeTransfer 0x00C#12 w) s) ≠
    busTransfer (writeTransfer 0x00C#12 w) s)

/-- R60, R148: the byte order of all five files. Byte k of a word is its bits 8k + 7 to 8k. Byte i of a 32-byte value
in A, B or R, of a 64-byte block in BLK and of the digest in DIG is byte (i mod 4) of word floor(i/4), and the bytes of A,
B or R read as a little-endian integer are its value. -/
def Obligations.FilesHoldTheirBytesLittleEndian : Prop :=
  (∀ (w : Word) (k : Nat), (byteOfWord w k).toNat = w.toNat / 2 ^ (8 * k) % 256) ∧
  (∀ f : Vector Word 8, le (bytesOfWords f.toList) = val f) ∧
  (∀ x, x < 2 ^ 256 → bytesOfWords (words8 x).toList = bytes32 x) ∧
  (∀ (x : Nat) (i : Fin 32), byteOfWord ((words8 x)[i.val / 4]'(by omega)) (i.val % 4) =
    BitVec.ofNat 8 (x / 2 ^ (8 * i.val))) ∧
  (∀ bytes : List Byte, bytes.length = 32 → bytes32 (le bytes) = bytes) ∧
  (∀ bytes : List Byte, bytes.length = 64 → bytesOfWords (blockOfBytes bytes).toList = bytes ∧
    ∀ i : Fin 64, bytes[i.val]? = some (byteOfWord ((blockOfBytes bytes)[i.val / 4]'(by omega)) (i.val % 4))) ∧
  (∀ dig : Vector Word 4, (digestBytes (chainOfDig dig)).length = 16 ∧
    ∀ i : Fin 16, (digestBytes (chainOfDig dig))[i.val]? = some (byteOfWord (dig[i.val / 4]'(by omega)) (i.val % 4)))

/-- R50, R10: P_BASE is aligned to 4096, as the OPEN table of 92_eei_decisions.md says, and the window's host addresses
and its offsets correspond one to one. Host addresses without an upper end, at which no window wraps, are the model's own
choice (log entry 6). -/
def Obligations.WindowAddressesAndOffsetsCorrespond : Prop :=
  Config.windowBase % 4096 = 0 ∧
  (∀ off : BitVec 12, windowOffset (hostAddress off) = some off) ∧
  (∀ (addr : Nat) (off : BitVec 12), windowOffset addr = some off ↔ hostAddress off = addr) ∧
  (∀ addr, windowOffset addr = none ↔ addr < Config.windowBase ∨ Config.windowBase + 4096 ≤ addr)

/-! ### The interrupt -/

/-- R184: the interrupt irq is IRQEN and DONE. Writing 1 to STATUS.DONE clears it, the accept of a command clears it, a reset edge
clears it; writing IRQEN = 0 masks it without clearing DONE. -/
def Obligations.IrqIsEnableAndDone : Prop :=
  ∀ s : State,
    (irq s = true ↔ s.irqen = true ∧ s.done = true) ∧
    (∀ w : Word, w.getLsbD 1 = true → irq (busTransfer (writeTransfer 0x008#12 w) s) = false) ∧
    (∀ i, s.busy = false → irq (busTransfer (writeTransfer 0x00C#12 (encode i)) s) = false) ∧
    (∀ bus ps t, s.inputs = { rstN := false, bus := bus } :: ps → step s = .next t → irq t = false) ∧
    (∀ w : Word, w.getLsbD 0 = false →
      irq (busTransfer (writeTransfer 0x004#12 w) s) = false ∧
      (busTransfer (writeTransfer 0x004#12 w) s).done = s.done)

/-- R185: the interrupt irq rises only at a completion, at the rejection of an illegal word, or when IRQEN is set while DONE is 1;
in each case only while IRQEN is 1. -/
def Obligations.IrqRisesOnlyOnItsThreeCauses : Prop :=
  ∀ s t : State, irq s = false → step s = .next t → irq t = true →
    t.irqen = true ∧
    ((s.busy = true ∧ s.cyclesLeft ≤ 1) ∨
     (∃ (tr : Transfer) (ps : List Pins), s.inputs = { rstN := true, bus := some tr } :: ps ∧
        tr.we = true ∧ tr.size = 2#2 ∧
        ((s.busy = false ∧ tr.addr = 0x00C#12 ∧ ∀ i, decode tr.wdata ≠ .ok i) ∨
         (tr.addr = 0x004#12 ∧ tr.wdata.getLsbD 0 = true ∧ s.done = true))))

/-! ### Same-cycle events, latching, and whole-machine rules -/

/-- R186: a transfer presented in the completion's cycle. A STATUS read returns BUSY = 1; a data-register access is
locked and sets ACCERR; a CMD write is dropped and sets OVR; a write of STATUS does not stop the completion's DONE. -/
def Obligations.TransferInTheCompletionCycleSeesTheStateBefore : Prop :=
  ∀ (s : State) (i : Instr) (tr : Transfer) (ps : List Pins),
    s.busy = true → s.cyclesLeft ≤ 1 → s.pendOp = some i → s.inputs = { rstN := true, bus := some tr } :: ps →
    tr.size = 2#2 → tr.addr.toNat % 4 = 0 →
    ∃ t, step s = .next t ∧ t.busy = false ∧ t.done = true ∧ t.pendOp = none ∧
      (tr.we = false → tr.addr = 0x008#12 →
        ∃ v : Word, t.resp = some { rdata := some v, err := false } ∧ v.getLsbD 0 = true) ∧
      (((0x040 ≤ tr.addr.toNat ∧ tr.addr.toNat < 0x0B0) ∨ (0x100 ≤ tr.addr.toNat ∧ tr.addr.toNat < 0x140)) →
        t.accerr = true ∧ t.resp = some { rdata := if tr.we then none else some 0#32, err := false } ∧
        ∃ u, exec i s = .next u ∧ t.fileA = u.fileA ∧ t.fileB = u.fileB ∧ t.fileR = u.fileR ∧ t.dig = u.dig ∧
          t.blk = u.blk) ∧
      (tr.we = true → tr.addr = 0x00C#12 → t.ovr = true)

/-- R221: LOWCHK is latched at accept. A completion does not depend on CTRL, and a write of CTRL does not change
the latched value; IRQEN takes effect at once. -/
def Obligations.LowchkIsLatchedAtAccept : Prop :=
  (∀ (s : State) (i : Instr), s.busy = false →
    (busTransfer (writeTransfer 0x00C#12 (encode i)) s).pendLowchk = s.lowchk) ∧
  (∀ (s : State) (w : Word), (busTransfer (writeTransfer 0x004#12 w) s).pendLowchk = s.pendLowchk ∧
    irq (busTransfer (writeTransfer 0x004#12 w) s) = (w.getLsbD 0 && s.done)) ∧
  (∀ (s t : State) (i : Instr) (e l : Bool), exec i s = .next t →
    exec i { s with irqen := e, lowchk := l } = .next { t with irqen := e, lowchk := l })

/-- R172, R211: BUSY falls only at the completion edge or at a reset edge, and a completion leaves DONE set. -/
def Obligations.BusyFallsOnlyAtCompletionOrReset : Prop :=
  ∀ s t : State, s.busy = true → step s = .next t → t.busy = false →
    (s.cyclesLeft ≤ 1 ∧ t.done = true) ∨ (∃ bus ps, s.inputs = { rstN := false, bus := bus } :: ps)

/-! ### Invariants -/

/-- R38 and R87 at reset, with the model's invariants of the hidden counter and working registers (R36, R225). -/
def Obligations.InvariantsHoldAtReset : Prop :=
  SequencerOk State.reset ∧ CounterOk State.reset ∧ WorkClear State.reset ∧ ResultCanonical State.reset

/-- R38: every step keeps the three invariants of the sequencer. -/
def Obligations.StepKeepsTheSequencerInvariants : Prop :=
  ∀ s t : State, SequencerOk s → step s = .next t → SequencerOk t

/-- R36, R225: every step keeps the hidden state in order: the counter between 1 and LAT_op while a command is in
flight and 0 otherwise, and the working registers zero while idle. -/
def Obligations.StepKeepsTheHiddenStateInOrder : Prop :=
  ∀ s t : State, SequencerOk s → CounterOk s → WorkClear s → step s = .next t → CounterOk t ∧ WorkClear t

/-- R87: every step keeps the result file canonical: below P, so that bit 31 of R[7] is 0. -/
def Obligations.StepKeepsTheResultCanonical : Prop :=
  ∀ s t : State, ResultCanonical s → step s = .next t → ResultCanonical t ∧ t.fileR[7].getLsbD 31 = false

/-- R183: no event halts the block: in every state that meets R38's invariants, every step has a next state. -/
def Obligations.NoEventStopsTheBlock : Prop :=
  ∀ s : State, SequencerOk s → ∃ t, step s = .next t

/-! ### Whole runs of the engine -/

/-- R225 (with R85, R172): from idle, a legal CMD write is accepted at its edge, and if no reset intervenes the command
completes exactly LAT_op edges later, BUSY being 1 and DONE 0 until then, whatever the host presents meanwhile. The data
registers and ERR are then what the command gives on the operands as they stood when it was accepted. -/
def Obligations.CommandCompletesExactlyItsLatencyAfterAccept : Prop :=
  ∀ (s : State) (i : Instr) (w : Word) (ps : List Pins), s.busy = false → decode w = .ok i →
    s.inputs = writePins 0x00C#12 w :: ps → (∀ p ∈ ps.take (Config.latency i), p.rstN = true) →
    1 ≤ Config.latency i ∧
    (∀ k, k < Config.latency i → ∃ t, core.run (1 + k) s = .next t ∧ t.busy = true ∧ t.done = false) ∧
    ∃ t u, core.run (1 + Config.latency i) s = .next t ∧ exec i (accept i s) = .next u ∧
      t.busy = false ∧ t.done = true ∧ t.pendOp = none ∧ t.err = u.err ∧
      t.fileA = u.fileA ∧ t.fileB = u.fileB ∧ t.fileR = u.fileR ∧ t.dig = u.dig ∧ t.blk = u.blk

/-- R227: the host's WAIT ends: in every state that meets R38's invariants and holds DONE or a command in flight, WAIT
reads DONE = 1 within two polls more than the cycles left. The bound on polls (log entry 13) and the counter it is
measured by (log entry 3) are the model's own choices. -/
def Obligations.WaitEndsWithinTheCyclesLeft : Prop :=
  ∀ s : State, SequencerOk s → (s.busy = true ∨ s.done = true) →
    ∃ (v : Word) (t : State), runWait (s.cyclesLeft + 2) s = .done [v] t ∧ v.getLsbD 1 = true ∧
      t.busy = false ∧ t.done = true

/-- R226: time is independent of data. Two states that agree on BUSY, DONE, the command in flight, the counter and what
the host presents, and may differ in every register and in CTRL, still agree on them after any number of steps, and one
stops only if the other does. -/
def Obligations.TimingIsIndependentOfData : Prop :=
  ∀ (n : Nat) (s s' : State), SameTiming s s' →
    (∃ t t' : State, core.run n s = .next t ∧ core.run n s' = .next t' ∧ SameTiming t t') ∨
    (∃ f : Fault, core.run n s = .fault f ∧ core.run n s' = .fault f)

/-- R35: the working registers cannot be observed. Two states that differ only in them differ only in them after any
number of steps, so in no answer, flag, register or interrupt. -/
def Obligations.WorkingRegistersCannotBeObserved : Prop :=
  ∀ (n : Nat) (s s' : State), SameButWork s s' →
    (∃ t t' : State, core.run n s = .next t ∧ core.run n s' = .next t' ∧ SameButWork t t' ∧ irq t = irq t') ∨
    (∃ f : Fault, core.run n s = .fault f ∧ core.run n s' = .fault f)

/-! ### The whole ladder -/

/-- R120-R124: X25519 and X25519_BASE run the whole ladder. There is a run of the variables x2, z2, x3, z3 and swap from
1, 0, u, 1 and 0 through 255 iterations, for the bits 254 down to 0 of the clamped scalar, each iteration with the
formulas of R122 and every variable below P; then the last exchange, and R receives x2 times the (P - 2)-th power of z2,
modulo P. The point u is val(B) mod 2^255 mod P for X25519 and 9 for X25519_BASE. -/
def Obligations.ScalarMultiplicationRunsTheWholeLadder : Prop :=
  ∀ (s : State) (i : Instr) (u : Nat),
    (i = .x25519 ∧ u = val s.fileB % 2 ^ 255 % Config.prime) ∨ (i = .x25519Base ∧ u = 9) →
    ∃ (v : Nat → LadderVars) (t : State), exec i s = .next t ∧
      v 0 = { x2 := 1, z2 := 0, x3 := u, z3 := 1, swap := false } ∧
      (∀ n, n < 255 →
        let k : Bool := if 251 < n then false else if n = 0 then true else (val s.fileA).testBit (254 - n)
        let x2 : ZMod Config.prime := (if (v n).swap = k then (v n).x2 else (v n).x3 : Nat)
        let z2 : ZMod Config.prime := (if (v n).swap = k then (v n).z2 else (v n).z3 : Nat)
        let x3 : ZMod Config.prime := (if (v n).swap = k then (v n).x3 else (v n).x2 : Nat)
        let z3 : ZMod Config.prime := (if (v n).swap = k then (v n).z3 else (v n).z2 : Nat)
        let te := (x2 + z2) ^ 2 - (x2 - z2) ^ 2
        let da := (x3 - z3) * (x2 + z2)
        let cb := (x3 + z3) * (x2 - z2)
        (v (n + 1)).swap = k ∧
        ((v (n + 1)).x2 : ZMod Config.prime) = (x2 + z2) ^ 2 * (x2 - z2) ^ 2 ∧
        ((v (n + 1)).z2 : ZMod Config.prime) = te * ((x2 + z2) ^ 2 + 121665 * te) ∧
        ((v (n + 1)).x3 : ZMod Config.prime) = (da + cb) ^ 2 ∧
        ((v (n + 1)).z3 : ZMod Config.prime) = u * (da - cb) ^ 2 ∧
        (v (n + 1)).x2 < Config.prime ∧ (v (n + 1)).z2 < Config.prime ∧
        (v (n + 1)).x3 < Config.prime ∧ (v (n + 1)).z3 < Config.prime) ∧
      val t.fileR =
        (if (v 255).swap then (v 255).x3 else (v 255).x2) *
          (if (v 255).swap then (v 255).z3 else (v 255).z2) ^ (Config.prime - 2) % Config.prime

/-! ### Host programs -/

/-- R88, R89: while idle, each pseudo-operation of the host's notation does what its expansion says, and changes nothing
but the file it writes and the bus's answer. WR256 and WRINT fill A or B, WRBLK fills BLK with the block's bytes, RD256
reads a file's words and its value, RDDIG the sixteen digest bytes, and CMD accepts its command. -/
def Obligations.HostOperationsFollowTheirExpansions : Prop :=
  ∀ (s : State) (polls : Nat), s.busy = false →
    let wrote (t : State) : State := { t with resp := some { rdata := none, err := false } }
    (∀ bytes : List Byte, bytes.length = 32 → ∃ f : Vector Word 8, bytesOfWords f.toList = bytes ∧
      runHost polls (hostWr256 .a bytes) s = .done [] (wrote { s with fileA := f }) ∧
      runHost polls (hostWr256 .b bytes) s = .done [] (wrote { s with fileB := f })) ∧
    (∀ n, n < 2 ^ 256 → ∃ f : Vector Word 8, val f = n ∧
      runHost polls (hostWrInt .a n) s = .done [] (wrote { s with fileA := f }) ∧
      runHost polls (hostWrInt .b n) s = .done [] (wrote { s with fileB := f })) ∧
    (∀ bytes : List Byte, bytes.length = 64 → ∃ f : Vector Word 16, bytesOfWords f.toList = bytes ∧
      runHost polls (hostWrBlk bytes) s = .done [] (wrote { s with blk := f })) ∧
    (∀ (file : Fin 8 → Reg) (f : Vector Word 8),
      (file = .a ∧ f = s.fileA) ∨ (file = .b ∧ f = s.fileB) ∨ (file = .r ∧ f = s.fileR) →
      ∃ t, runHost polls (hostRd256 file) s = .done f.toList t ∧ t = { s with resp := t.resp } ∧
        (runHost polls (hostRd256 file) s).valueRead = some (val f)) ∧
    (∃ t, runHost polls hostRdDig s = .done s.dig.toList t ∧ t = { s with resp := t.resp } ∧
      (runHost polls hostRdDig s).bytesRead = some (bytesOfWords s.dig.toList)) ∧
    (∀ i : Instr, runHost polls (hostCmd i) s = .done [] (wrote (accept i s)))

/-- R89: WAIT ends only on a poll that read DONE = 1, and that word is what it gives the host. A program goes past a WAIT
only when the WAIT has ended: while it waits, no later line runs. That a wait of more than `polls` polls is given up as
still waiting is the model's own choice (log entry 13). -/
def Obligations.WaitEndsOnlyOnDone : Prop :=
  ∀ (polls : Nat) (s : State),
    (∀ (values : List Word) (t : State), runWait polls s = .done values t →
      ∃ v : Word, values = [v] ∧ v.getLsbD 1 = true ∧ t.resp = some { rdata := some v, err := false }) ∧
    (∀ (values : List Word) (t : State), runWait polls s = .waiting values t →
      (∀ ops, runHost polls (.wait :: ops) s = .waiting values t) ∧ values = [] ∧
      ∀ more v u, runWait more s = .done [v] u → polls < more)

/-- R151: the host's sequence for MD5 gives the digest. From every idle state and for every message, if each WAIT may
poll more often than the latencies of MD5_INIT and MD5_BLOCK, the sequence ends, and the bytes its RDDIG reads are the
digest of the padded message, its blocks compressed in order from the initial value. The bound on polls is the model's
own choice (log entry 13). -/
def Obligations.HostSequenceOfMd5GivesTheDigest : Prop :=
  ∀ (s : State) (m : List Byte) (polls : Nat), s.busy = false →
    Config.latency .md5Init < polls → Config.latency .md5Block < polls →
    runDigest polls m s = some (md5 m)
end

