-- ==== Sys2Proof/Laws/Decode.lean ====
section
/-! SUPPORT. Words, bytes and fields as numbers: each bit-vector operation of the decoder and the encoder, said once. -/

namespace Sys2Proof

theorem toNat_append_add {m n : Nat} (x : BitVec m) (y : BitVec n) :
    (x ++ y).toNat = x.toNat * 2 ^ n + y.toNat := by
  rw [BitVec.toNat_append, ← Nat.shiftLeft_add_eq_or_of_lt y.isLt, Nat.shiftLeft_eq]

theorem wordOfBytes_toNat (b0 b1 b2 b3 : Byte) : (wordOfBytes b0 b1 b2 b3).toNat =
    b0.toNat + 2 ^ 8 * b1.toNat + 2 ^ 16 * b2.toNat + 2 ^ 24 * b3.toNat := by
  simp only [wordOfBytes, toNat_append_add]; omega

theorem byteOfWord_toNat (w : Word) (k : Nat) : (byteOfWord w k).toNat = w.toNat / 2 ^ (8 * k) % 2 ^ 8 := by
  simp [byteOfWord, BitVec.extractLsb'_toNat, Nat.shiftRight_eq_div_pow]

/-- Splitting a word built from fields gives the fields back. -/
theorem splitWord_joinWord (f : CmdFormat) : splitWord (joinWord f) = f := by
  obtain ⟨o, r⟩ := f
  have ho := o.isLt
  have hr := r.isLt
  simp only [splitWord, joinWord, CmdFormat.mk.injEq]
  constructor <;> apply BitVec.eq_of_toNat_eq <;>
    simp only [BitVec.extractLsb'_toNat, toNat_append_add, Nat.shiftRight_eq_div_pow] <;> omega

/-- Building a word from its fields gives the word back. -/
theorem joinWord_splitWord (w : Word) : joinWord (splitWord w) = w := by
  have h := w.isLt
  apply BitVec.eq_of_toNat_eq
  simp only [splitWord, joinWord, BitVec.extractLsb'_toNat, toNat_append_add, Nat.shiftRight_eq_div_pow]
  omega

/-- A word is the word of its four bytes. -/
theorem wordOfBytes_byteOfWord (w : Word) :
    wordOfBytes (byteOfWord w 0) (byteOfWord w 1) (byteOfWord w 2) (byteOfWord w 3) = w := by
  have h := w.isLt
  apply BitVec.eq_of_toNat_eq
  rw [wordOfBytes_toNat]
  simp only [byteOfWord_toNat]
  omega

/-- The bytes a word of the opcode table is laid out as are the word's bytes, the least significant first. -/
theorem layBytes_word (w : Word) :
    layBytes 32 w.toNat = [byteOfWord w 0, byteOfWord w 1, byteOfWord w 2, byteOfWord w 3] := by
  have h := w.isLt
  simp only [layBytes, show List.range (max 4 (32 / 8)) = [0, 1, 2, 3] by decide, List.map, List.cons.injEq, and_true]
  refine ⟨?_, ?_, ?_, ?_⟩ <;> apply BitVec.eq_of_toNat_eq <;> rw [byteOfWord_toNat, BitVec.toNat_ofNat] <;> omega

end Sys2Proof
end

