-- ==== Sys2Proof/Laws/State.lean ====
section
/-! SUPPORT. One lemma per field per update of the state, so that no later proof unfolds a record update. -/

namespace Sys2Proof
namespace Machine

variable (s : State)

/-! ### writeCtrl -/

@[simp] theorem writeCtrl_irqen (w : Word) : (writeCtrl w s).irqen = w.getLsbD 0 := rfl
@[simp] theorem writeCtrl_lowchk (w : Word) : (writeCtrl w s).lowchk = w.getLsbD 1 := rfl
@[simp] theorem writeCtrl_busy (w : Word) : (writeCtrl w s).busy = s.busy := rfl
@[simp] theorem writeCtrl_done (w : Word) : (writeCtrl w s).done = s.done := rfl
@[simp] theorem writeCtrl_ovr (w : Word) : (writeCtrl w s).ovr = s.ovr := rfl
@[simp] theorem writeCtrl_accerr (w : Word) : (writeCtrl w s).accerr = s.accerr := rfl
@[simp] theorem writeCtrl_err (w : Word) : (writeCtrl w s).err = s.err := rfl
@[simp] theorem writeCtrl_fileA (w : Word) : (writeCtrl w s).fileA = s.fileA := rfl
@[simp] theorem writeCtrl_fileB (w : Word) : (writeCtrl w s).fileB = s.fileB := rfl
@[simp] theorem writeCtrl_fileR (w : Word) : (writeCtrl w s).fileR = s.fileR := rfl
@[simp] theorem writeCtrl_dig (w : Word) : (writeCtrl w s).dig = s.dig := rfl
@[simp] theorem writeCtrl_blk (w : Word) : (writeCtrl w s).blk = s.blk := rfl
@[simp] theorem writeCtrl_pendOp (w : Word) : (writeCtrl w s).pendOp = s.pendOp := rfl
@[simp] theorem writeCtrl_pendLowchk (w : Word) : (writeCtrl w s).pendLowchk = s.pendLowchk := rfl
@[simp] theorem writeCtrl_cyclesLeft (w : Word) : (writeCtrl w s).cyclesLeft = s.cyclesLeft := rfl
@[simp] theorem writeCtrl_work (w : Word) : (writeCtrl w s).work = s.work := rfl
@[simp] theorem writeCtrl_resp (w : Word) : (writeCtrl w s).resp = s.resp := rfl
@[simp] theorem writeCtrl_inputs (w : Word) : (writeCtrl w s).inputs = s.inputs := rfl

/-! ### writeStatus -/

@[simp] theorem writeStatus_irqen (w : Word) : (writeStatus w s).irqen = s.irqen := rfl
@[simp] theorem writeStatus_lowchk (w : Word) : (writeStatus w s).lowchk = s.lowchk := rfl
@[simp] theorem writeStatus_busy (w : Word) : (writeStatus w s).busy = s.busy := rfl
@[simp] theorem writeStatus_done (w : Word) : (writeStatus w s).done = (s.done && !w.getLsbD 1) := rfl
@[simp] theorem writeStatus_ovr (w : Word) : (writeStatus w s).ovr = (s.ovr && !w.getLsbD 2) := rfl
@[simp] theorem writeStatus_accerr (w : Word) : (writeStatus w s).accerr = (s.accerr && !w.getLsbD 3) := rfl
@[simp] theorem writeStatus_err (w : Word) : (writeStatus w s).err = s.err := rfl
@[simp] theorem writeStatus_fileA (w : Word) : (writeStatus w s).fileA = s.fileA := rfl
@[simp] theorem writeStatus_fileB (w : Word) : (writeStatus w s).fileB = s.fileB := rfl
@[simp] theorem writeStatus_fileR (w : Word) : (writeStatus w s).fileR = s.fileR := rfl
@[simp] theorem writeStatus_dig (w : Word) : (writeStatus w s).dig = s.dig := rfl
@[simp] theorem writeStatus_blk (w : Word) : (writeStatus w s).blk = s.blk := rfl
@[simp] theorem writeStatus_pendOp (w : Word) : (writeStatus w s).pendOp = s.pendOp := rfl
@[simp] theorem writeStatus_pendLowchk (w : Word) : (writeStatus w s).pendLowchk = s.pendLowchk := rfl
@[simp] theorem writeStatus_cyclesLeft (w : Word) : (writeStatus w s).cyclesLeft = s.cyclesLeft := rfl
@[simp] theorem writeStatus_work (w : Word) : (writeStatus w s).work = s.work := rfl
@[simp] theorem writeStatus_resp (w : Word) : (writeStatus w s).resp = s.resp := rfl
@[simp] theorem writeStatus_inputs (w : Word) : (writeStatus w s).inputs = s.inputs := rfl

/-! ### flagOverrun -/

@[simp] theorem flagOverrun_irqen : (flagOverrun s).irqen = s.irqen := rfl
@[simp] theorem flagOverrun_lowchk : (flagOverrun s).lowchk = s.lowchk := rfl
@[simp] theorem flagOverrun_busy : (flagOverrun s).busy = s.busy := rfl
@[simp] theorem flagOverrun_done : (flagOverrun s).done = s.done := rfl
@[simp] theorem flagOverrun_ovr : (flagOverrun s).ovr = true := rfl
@[simp] theorem flagOverrun_accerr : (flagOverrun s).accerr = s.accerr := rfl
@[simp] theorem flagOverrun_err : (flagOverrun s).err = s.err := rfl
@[simp] theorem flagOverrun_fileA : (flagOverrun s).fileA = s.fileA := rfl
@[simp] theorem flagOverrun_fileB : (flagOverrun s).fileB = s.fileB := rfl
@[simp] theorem flagOverrun_fileR : (flagOverrun s).fileR = s.fileR := rfl
@[simp] theorem flagOverrun_dig : (flagOverrun s).dig = s.dig := rfl
@[simp] theorem flagOverrun_blk : (flagOverrun s).blk = s.blk := rfl
@[simp] theorem flagOverrun_pendOp : (flagOverrun s).pendOp = s.pendOp := rfl
@[simp] theorem flagOverrun_pendLowchk : (flagOverrun s).pendLowchk = s.pendLowchk := rfl
@[simp] theorem flagOverrun_cyclesLeft : (flagOverrun s).cyclesLeft = s.cyclesLeft := rfl
@[simp] theorem flagOverrun_work : (flagOverrun s).work = s.work := rfl
@[simp] theorem flagOverrun_resp : (flagOverrun s).resp = s.resp := rfl
@[simp] theorem flagOverrun_inputs : (flagOverrun s).inputs = s.inputs := rfl

/-! ### flagAccessError -/

@[simp] theorem flagAccessError_irqen : (flagAccessError s).irqen = s.irqen := rfl
@[simp] theorem flagAccessError_lowchk : (flagAccessError s).lowchk = s.lowchk := rfl
@[simp] theorem flagAccessError_busy : (flagAccessError s).busy = s.busy := rfl
@[simp] theorem flagAccessError_done : (flagAccessError s).done = s.done := rfl
@[simp] theorem flagAccessError_ovr : (flagAccessError s).ovr = s.ovr := rfl
@[simp] theorem flagAccessError_accerr : (flagAccessError s).accerr = true := rfl
@[simp] theorem flagAccessError_err : (flagAccessError s).err = s.err := rfl
@[simp] theorem flagAccessError_fileA : (flagAccessError s).fileA = s.fileA := rfl
@[simp] theorem flagAccessError_fileB : (flagAccessError s).fileB = s.fileB := rfl
@[simp] theorem flagAccessError_fileR : (flagAccessError s).fileR = s.fileR := rfl
@[simp] theorem flagAccessError_dig : (flagAccessError s).dig = s.dig := rfl
@[simp] theorem flagAccessError_blk : (flagAccessError s).blk = s.blk := rfl
@[simp] theorem flagAccessError_pendOp : (flagAccessError s).pendOp = s.pendOp := rfl
@[simp] theorem flagAccessError_pendLowchk : (flagAccessError s).pendLowchk = s.pendLowchk := rfl
@[simp] theorem flagAccessError_cyclesLeft : (flagAccessError s).cyclesLeft = s.cyclesLeft := rfl
@[simp] theorem flagAccessError_work : (flagAccessError s).work = s.work := rfl
@[simp] theorem flagAccessError_resp : (flagAccessError s).resp = s.resp := rfl
@[simp] theorem flagAccessError_inputs : (flagAccessError s).inputs = s.inputs := rfl

/-! ### writeA -/

@[simp] theorem writeA_irqen (j : Fin 8) (w : Word) : (writeA j w s).irqen = s.irqen := rfl
@[simp] theorem writeA_lowchk (j : Fin 8) (w : Word) : (writeA j w s).lowchk = s.lowchk := rfl
@[simp] theorem writeA_busy (j : Fin 8) (w : Word) : (writeA j w s).busy = s.busy := rfl
@[simp] theorem writeA_done (j : Fin 8) (w : Word) : (writeA j w s).done = s.done := rfl
@[simp] theorem writeA_ovr (j : Fin 8) (w : Word) : (writeA j w s).ovr = s.ovr := rfl
@[simp] theorem writeA_accerr (j : Fin 8) (w : Word) : (writeA j w s).accerr = s.accerr := rfl
@[simp] theorem writeA_err (j : Fin 8) (w : Word) : (writeA j w s).err = s.err := rfl
@[simp] theorem writeA_fileA (j : Fin 8) (w : Word) : (writeA j w s).fileA = s.fileA.set j w := rfl
@[simp] theorem writeA_fileB (j : Fin 8) (w : Word) : (writeA j w s).fileB = s.fileB := rfl
@[simp] theorem writeA_fileR (j : Fin 8) (w : Word) : (writeA j w s).fileR = s.fileR := rfl
@[simp] theorem writeA_dig (j : Fin 8) (w : Word) : (writeA j w s).dig = s.dig := rfl
@[simp] theorem writeA_blk (j : Fin 8) (w : Word) : (writeA j w s).blk = s.blk := rfl
@[simp] theorem writeA_pendOp (j : Fin 8) (w : Word) : (writeA j w s).pendOp = s.pendOp := rfl
@[simp] theorem writeA_pendLowchk (j : Fin 8) (w : Word) : (writeA j w s).pendLowchk = s.pendLowchk := rfl
@[simp] theorem writeA_cyclesLeft (j : Fin 8) (w : Word) : (writeA j w s).cyclesLeft = s.cyclesLeft := rfl
@[simp] theorem writeA_work (j : Fin 8) (w : Word) : (writeA j w s).work = s.work := rfl
@[simp] theorem writeA_resp (j : Fin 8) (w : Word) : (writeA j w s).resp = s.resp := rfl
@[simp] theorem writeA_inputs (j : Fin 8) (w : Word) : (writeA j w s).inputs = s.inputs := rfl

/-! ### writeB -/

@[simp] theorem writeB_irqen (j : Fin 8) (w : Word) : (writeB j w s).irqen = s.irqen := rfl
@[simp] theorem writeB_lowchk (j : Fin 8) (w : Word) : (writeB j w s).lowchk = s.lowchk := rfl
@[simp] theorem writeB_busy (j : Fin 8) (w : Word) : (writeB j w s).busy = s.busy := rfl
@[simp] theorem writeB_done (j : Fin 8) (w : Word) : (writeB j w s).done = s.done := rfl
@[simp] theorem writeB_ovr (j : Fin 8) (w : Word) : (writeB j w s).ovr = s.ovr := rfl
@[simp] theorem writeB_accerr (j : Fin 8) (w : Word) : (writeB j w s).accerr = s.accerr := rfl
@[simp] theorem writeB_err (j : Fin 8) (w : Word) : (writeB j w s).err = s.err := rfl
@[simp] theorem writeB_fileA (j : Fin 8) (w : Word) : (writeB j w s).fileA = s.fileA := rfl
@[simp] theorem writeB_fileB (j : Fin 8) (w : Word) : (writeB j w s).fileB = s.fileB.set j w := rfl
@[simp] theorem writeB_fileR (j : Fin 8) (w : Word) : (writeB j w s).fileR = s.fileR := rfl
@[simp] theorem writeB_dig (j : Fin 8) (w : Word) : (writeB j w s).dig = s.dig := rfl
@[simp] theorem writeB_blk (j : Fin 8) (w : Word) : (writeB j w s).blk = s.blk := rfl
@[simp] theorem writeB_pendOp (j : Fin 8) (w : Word) : (writeB j w s).pendOp = s.pendOp := rfl
@[simp] theorem writeB_pendLowchk (j : Fin 8) (w : Word) : (writeB j w s).pendLowchk = s.pendLowchk := rfl
@[simp] theorem writeB_cyclesLeft (j : Fin 8) (w : Word) : (writeB j w s).cyclesLeft = s.cyclesLeft := rfl
@[simp] theorem writeB_work (j : Fin 8) (w : Word) : (writeB j w s).work = s.work := rfl
@[simp] theorem writeB_resp (j : Fin 8) (w : Word) : (writeB j w s).resp = s.resp := rfl
@[simp] theorem writeB_inputs (j : Fin 8) (w : Word) : (writeB j w s).inputs = s.inputs := rfl

/-! ### writeDig -/

@[simp] theorem writeDig_irqen (j : Fin 4) (w : Word) : (writeDig j w s).irqen = s.irqen := rfl
@[simp] theorem writeDig_lowchk (j : Fin 4) (w : Word) : (writeDig j w s).lowchk = s.lowchk := rfl
@[simp] theorem writeDig_busy (j : Fin 4) (w : Word) : (writeDig j w s).busy = s.busy := rfl
@[simp] theorem writeDig_done (j : Fin 4) (w : Word) : (writeDig j w s).done = s.done := rfl
@[simp] theorem writeDig_ovr (j : Fin 4) (w : Word) : (writeDig j w s).ovr = s.ovr := rfl
@[simp] theorem writeDig_accerr (j : Fin 4) (w : Word) : (writeDig j w s).accerr = s.accerr := rfl
@[simp] theorem writeDig_err (j : Fin 4) (w : Word) : (writeDig j w s).err = s.err := rfl
@[simp] theorem writeDig_fileA (j : Fin 4) (w : Word) : (writeDig j w s).fileA = s.fileA := rfl
@[simp] theorem writeDig_fileB (j : Fin 4) (w : Word) : (writeDig j w s).fileB = s.fileB := rfl
@[simp] theorem writeDig_fileR (j : Fin 4) (w : Word) : (writeDig j w s).fileR = s.fileR := rfl
@[simp] theorem writeDig_dig (j : Fin 4) (w : Word) : (writeDig j w s).dig = s.dig.set j w := rfl
@[simp] theorem writeDig_blk (j : Fin 4) (w : Word) : (writeDig j w s).blk = s.blk := rfl
@[simp] theorem writeDig_pendOp (j : Fin 4) (w : Word) : (writeDig j w s).pendOp = s.pendOp := rfl
@[simp] theorem writeDig_pendLowchk (j : Fin 4) (w : Word) : (writeDig j w s).pendLowchk = s.pendLowchk := rfl
@[simp] theorem writeDig_cyclesLeft (j : Fin 4) (w : Word) : (writeDig j w s).cyclesLeft = s.cyclesLeft := rfl
@[simp] theorem writeDig_work (j : Fin 4) (w : Word) : (writeDig j w s).work = s.work := rfl
@[simp] theorem writeDig_resp (j : Fin 4) (w : Word) : (writeDig j w s).resp = s.resp := rfl
@[simp] theorem writeDig_inputs (j : Fin 4) (w : Word) : (writeDig j w s).inputs = s.inputs := rfl

/-! ### writeBlk -/

@[simp] theorem writeBlk_irqen (j : Fin 16) (w : Word) : (writeBlk j w s).irqen = s.irqen := rfl
@[simp] theorem writeBlk_lowchk (j : Fin 16) (w : Word) : (writeBlk j w s).lowchk = s.lowchk := rfl
@[simp] theorem writeBlk_busy (j : Fin 16) (w : Word) : (writeBlk j w s).busy = s.busy := rfl
@[simp] theorem writeBlk_done (j : Fin 16) (w : Word) : (writeBlk j w s).done = s.done := rfl
@[simp] theorem writeBlk_ovr (j : Fin 16) (w : Word) : (writeBlk j w s).ovr = s.ovr := rfl
@[simp] theorem writeBlk_accerr (j : Fin 16) (w : Word) : (writeBlk j w s).accerr = s.accerr := rfl
@[simp] theorem writeBlk_err (j : Fin 16) (w : Word) : (writeBlk j w s).err = s.err := rfl
@[simp] theorem writeBlk_fileA (j : Fin 16) (w : Word) : (writeBlk j w s).fileA = s.fileA := rfl
@[simp] theorem writeBlk_fileB (j : Fin 16) (w : Word) : (writeBlk j w s).fileB = s.fileB := rfl
@[simp] theorem writeBlk_fileR (j : Fin 16) (w : Word) : (writeBlk j w s).fileR = s.fileR := rfl
@[simp] theorem writeBlk_dig (j : Fin 16) (w : Word) : (writeBlk j w s).dig = s.dig := rfl
@[simp] theorem writeBlk_blk (j : Fin 16) (w : Word) : (writeBlk j w s).blk = s.blk.set j w := rfl
@[simp] theorem writeBlk_pendOp (j : Fin 16) (w : Word) : (writeBlk j w s).pendOp = s.pendOp := rfl
@[simp] theorem writeBlk_pendLowchk (j : Fin 16) (w : Word) : (writeBlk j w s).pendLowchk = s.pendLowchk := rfl
@[simp] theorem writeBlk_cyclesLeft (j : Fin 16) (w : Word) : (writeBlk j w s).cyclesLeft = s.cyclesLeft := rfl
@[simp] theorem writeBlk_work (j : Fin 16) (w : Word) : (writeBlk j w s).work = s.work := rfl
@[simp] theorem writeBlk_resp (j : Fin 16) (w : Word) : (writeBlk j w s).resp = s.resp := rfl
@[simp] theorem writeBlk_inputs (j : Fin 16) (w : Word) : (writeBlk j w s).inputs = s.inputs := rfl

/-! ### putR -/

@[simp] theorem putR_irqen (f : Vector Word 8) : (putR f s).irqen = s.irqen := rfl
@[simp] theorem putR_lowchk (f : Vector Word 8) : (putR f s).lowchk = s.lowchk := rfl
@[simp] theorem putR_busy (f : Vector Word 8) : (putR f s).busy = s.busy := rfl
@[simp] theorem putR_done (f : Vector Word 8) : (putR f s).done = s.done := rfl
@[simp] theorem putR_ovr (f : Vector Word 8) : (putR f s).ovr = s.ovr := rfl
@[simp] theorem putR_accerr (f : Vector Word 8) : (putR f s).accerr = s.accerr := rfl
@[simp] theorem putR_err (f : Vector Word 8) : (putR f s).err = s.err := rfl
@[simp] theorem putR_fileA (f : Vector Word 8) : (putR f s).fileA = s.fileA := rfl
@[simp] theorem putR_fileB (f : Vector Word 8) : (putR f s).fileB = s.fileB := rfl
@[simp] theorem putR_fileR (f : Vector Word 8) : (putR f s).fileR = f := rfl
@[simp] theorem putR_dig (f : Vector Word 8) : (putR f s).dig = s.dig := rfl
@[simp] theorem putR_blk (f : Vector Word 8) : (putR f s).blk = s.blk := rfl
@[simp] theorem putR_pendOp (f : Vector Word 8) : (putR f s).pendOp = s.pendOp := rfl
@[simp] theorem putR_pendLowchk (f : Vector Word 8) : (putR f s).pendLowchk = s.pendLowchk := rfl
@[simp] theorem putR_cyclesLeft (f : Vector Word 8) : (putR f s).cyclesLeft = s.cyclesLeft := rfl
@[simp] theorem putR_work (f : Vector Word 8) : (putR f s).work = s.work := rfl
@[simp] theorem putR_resp (f : Vector Word 8) : (putR f s).resp = s.resp := rfl
@[simp] theorem putR_inputs (f : Vector Word 8) : (putR f s).inputs = s.inputs := rfl

/-! ### putDig -/

@[simp] theorem putDig_irqen (f : Vector Word 4) : (putDig f s).irqen = s.irqen := rfl
@[simp] theorem putDig_lowchk (f : Vector Word 4) : (putDig f s).lowchk = s.lowchk := rfl
@[simp] theorem putDig_busy (f : Vector Word 4) : (putDig f s).busy = s.busy := rfl
@[simp] theorem putDig_done (f : Vector Word 4) : (putDig f s).done = s.done := rfl
@[simp] theorem putDig_ovr (f : Vector Word 4) : (putDig f s).ovr = s.ovr := rfl
@[simp] theorem putDig_accerr (f : Vector Word 4) : (putDig f s).accerr = s.accerr := rfl
@[simp] theorem putDig_err (f : Vector Word 4) : (putDig f s).err = s.err := rfl
@[simp] theorem putDig_fileA (f : Vector Word 4) : (putDig f s).fileA = s.fileA := rfl
@[simp] theorem putDig_fileB (f : Vector Word 4) : (putDig f s).fileB = s.fileB := rfl
@[simp] theorem putDig_fileR (f : Vector Word 4) : (putDig f s).fileR = s.fileR := rfl
@[simp] theorem putDig_dig (f : Vector Word 4) : (putDig f s).dig = f := rfl
@[simp] theorem putDig_blk (f : Vector Word 4) : (putDig f s).blk = s.blk := rfl
@[simp] theorem putDig_pendOp (f : Vector Word 4) : (putDig f s).pendOp = s.pendOp := rfl
@[simp] theorem putDig_pendLowchk (f : Vector Word 4) : (putDig f s).pendLowchk = s.pendLowchk := rfl
@[simp] theorem putDig_cyclesLeft (f : Vector Word 4) : (putDig f s).cyclesLeft = s.cyclesLeft := rfl
@[simp] theorem putDig_work (f : Vector Word 4) : (putDig f s).work = s.work := rfl
@[simp] theorem putDig_resp (f : Vector Word 4) : (putDig f s).resp = s.resp := rfl
@[simp] theorem putDig_inputs (f : Vector Word 4) : (putDig f s).inputs = s.inputs := rfl

/-! ### zeroFiles -/

@[simp] theorem zeroFiles_irqen : (zeroFiles s).irqen = s.irqen := rfl
@[simp] theorem zeroFiles_lowchk : (zeroFiles s).lowchk = s.lowchk := rfl
@[simp] theorem zeroFiles_busy : (zeroFiles s).busy = s.busy := rfl
@[simp] theorem zeroFiles_done : (zeroFiles s).done = s.done := rfl
@[simp] theorem zeroFiles_ovr : (zeroFiles s).ovr = s.ovr := rfl
@[simp] theorem zeroFiles_accerr : (zeroFiles s).accerr = s.accerr := rfl
@[simp] theorem zeroFiles_err : (zeroFiles s).err = s.err := rfl
@[simp] theorem zeroFiles_fileA : (zeroFiles s).fileA = Vector.replicate 8 0#32 := rfl
@[simp] theorem zeroFiles_fileB : (zeroFiles s).fileB = Vector.replicate 8 0#32 := rfl
@[simp] theorem zeroFiles_fileR : (zeroFiles s).fileR = Vector.replicate 8 0#32 := rfl
@[simp] theorem zeroFiles_dig : (zeroFiles s).dig = Vector.replicate 4 0#32 := rfl
@[simp] theorem zeroFiles_blk : (zeroFiles s).blk = Vector.replicate 16 0#32 := rfl
@[simp] theorem zeroFiles_pendOp : (zeroFiles s).pendOp = s.pendOp := rfl
@[simp] theorem zeroFiles_pendLowchk : (zeroFiles s).pendLowchk = s.pendLowchk := rfl
@[simp] theorem zeroFiles_cyclesLeft : (zeroFiles s).cyclesLeft = s.cyclesLeft := rfl
@[simp] theorem zeroFiles_work : (zeroFiles s).work = s.work := rfl
@[simp] theorem zeroFiles_resp : (zeroFiles s).resp = s.resp := rfl
@[simp] theorem zeroFiles_inputs : (zeroFiles s).inputs = s.inputs := rfl

/-! ### respond -/

@[simp] theorem respond_irqen (r : Option BusResponse) : (respond r s).irqen = s.irqen := rfl
@[simp] theorem respond_lowchk (r : Option BusResponse) : (respond r s).lowchk = s.lowchk := rfl
@[simp] theorem respond_busy (r : Option BusResponse) : (respond r s).busy = s.busy := rfl
@[simp] theorem respond_done (r : Option BusResponse) : (respond r s).done = s.done := rfl
@[simp] theorem respond_ovr (r : Option BusResponse) : (respond r s).ovr = s.ovr := rfl
@[simp] theorem respond_accerr (r : Option BusResponse) : (respond r s).accerr = s.accerr := rfl
@[simp] theorem respond_err (r : Option BusResponse) : (respond r s).err = s.err := rfl
@[simp] theorem respond_fileA (r : Option BusResponse) : (respond r s).fileA = s.fileA := rfl
@[simp] theorem respond_fileB (r : Option BusResponse) : (respond r s).fileB = s.fileB := rfl
@[simp] theorem respond_fileR (r : Option BusResponse) : (respond r s).fileR = s.fileR := rfl
@[simp] theorem respond_dig (r : Option BusResponse) : (respond r s).dig = s.dig := rfl
@[simp] theorem respond_blk (r : Option BusResponse) : (respond r s).blk = s.blk := rfl
@[simp] theorem respond_pendOp (r : Option BusResponse) : (respond r s).pendOp = s.pendOp := rfl
@[simp] theorem respond_pendLowchk (r : Option BusResponse) : (respond r s).pendLowchk = s.pendLowchk := rfl
@[simp] theorem respond_cyclesLeft (r : Option BusResponse) : (respond r s).cyclesLeft = s.cyclesLeft := rfl
@[simp] theorem respond_work (r : Option BusResponse) : (respond r s).work = s.work := rfl
@[simp] theorem respond_resp (r : Option BusResponse) : (respond r s).resp = r := rfl
@[simp] theorem respond_inputs (r : Option BusResponse) : (respond r s).inputs = s.inputs := rfl

/-! ### report -/

@[simp] theorem report_irqen (c : BitVec 4) : (report c s).irqen = s.irqen := rfl
@[simp] theorem report_lowchk (c : BitVec 4) : (report c s).lowchk = s.lowchk := rfl
@[simp] theorem report_busy (c : BitVec 4) : (report c s).busy = s.busy := rfl
@[simp] theorem report_done (c : BitVec 4) : (report c s).done = true := rfl
@[simp] theorem report_ovr (c : BitVec 4) : (report c s).ovr = s.ovr := rfl
@[simp] theorem report_accerr (c : BitVec 4) : (report c s).accerr = s.accerr := rfl
@[simp] theorem report_err (c : BitVec 4) : (report c s).err = c := rfl
@[simp] theorem report_fileA (c : BitVec 4) : (report c s).fileA = s.fileA := rfl
@[simp] theorem report_fileB (c : BitVec 4) : (report c s).fileB = s.fileB := rfl
@[simp] theorem report_fileR (c : BitVec 4) : (report c s).fileR = s.fileR := rfl
@[simp] theorem report_dig (c : BitVec 4) : (report c s).dig = s.dig := rfl
@[simp] theorem report_blk (c : BitVec 4) : (report c s).blk = s.blk := rfl
@[simp] theorem report_pendOp (c : BitVec 4) : (report c s).pendOp = s.pendOp := rfl
@[simp] theorem report_pendLowchk (c : BitVec 4) : (report c s).pendLowchk = s.pendLowchk := rfl
@[simp] theorem report_cyclesLeft (c : BitVec 4) : (report c s).cyclesLeft = s.cyclesLeft := rfl
@[simp] theorem report_work (c : BitVec 4) : (report c s).work = s.work := rfl
@[simp] theorem report_resp (c : BitVec 4) : (report c s).resp = s.resp := rfl
@[simp] theorem report_inputs (c : BitVec 4) : (report c s).inputs = s.inputs := rfl

/-! ### accept -/

@[simp] theorem accept_irqen (i : Instr) : (accept i s).irqen = s.irqen := rfl
@[simp] theorem accept_lowchk (i : Instr) : (accept i s).lowchk = s.lowchk := rfl
@[simp] theorem accept_busy (i : Instr) : (accept i s).busy = true := rfl
@[simp] theorem accept_done (i : Instr) : (accept i s).done = false := rfl
@[simp] theorem accept_ovr (i : Instr) : (accept i s).ovr = s.ovr := rfl
@[simp] theorem accept_accerr (i : Instr) : (accept i s).accerr = s.accerr := rfl
@[simp] theorem accept_err (i : Instr) : (accept i s).err = errNone := rfl
@[simp] theorem accept_fileA (i : Instr) : (accept i s).fileA = s.fileA := rfl
@[simp] theorem accept_fileB (i : Instr) : (accept i s).fileB = s.fileB := rfl
@[simp] theorem accept_fileR (i : Instr) : (accept i s).fileR = s.fileR := rfl
@[simp] theorem accept_dig (i : Instr) : (accept i s).dig = s.dig := rfl
@[simp] theorem accept_blk (i : Instr) : (accept i s).blk = s.blk := rfl
@[simp] theorem accept_pendOp (i : Instr) : (accept i s).pendOp = some i := rfl
@[simp] theorem accept_pendLowchk (i : Instr) : (accept i s).pendLowchk = s.lowchk := rfl
@[simp] theorem accept_cyclesLeft (i : Instr) : (accept i s).cyclesLeft = Config.latency i := rfl
@[simp] theorem accept_work (i : Instr) : (accept i s).work = Config.workInFlight (some i) s.lowchk s.fileA s.fileB s.dig s.blk (Config.latency i) := rfl
@[simp] theorem accept_resp (i : Instr) : (accept i s).resp = s.resp := rfl
@[simp] theorem accept_inputs (i : Instr) : (accept i s).inputs = s.inputs := rfl

/-! ### goIdle -/

@[simp] theorem goIdle_irqen : (goIdle s).irqen = s.irqen := rfl
@[simp] theorem goIdle_lowchk : (goIdle s).lowchk = s.lowchk := rfl
@[simp] theorem goIdle_busy : (goIdle s).busy = false := rfl
@[simp] theorem goIdle_done : (goIdle s).done = s.done := rfl
@[simp] theorem goIdle_ovr : (goIdle s).ovr = s.ovr := rfl
@[simp] theorem goIdle_accerr : (goIdle s).accerr = s.accerr := rfl
@[simp] theorem goIdle_err : (goIdle s).err = s.err := rfl
@[simp] theorem goIdle_fileA : (goIdle s).fileA = s.fileA := rfl
@[simp] theorem goIdle_fileB : (goIdle s).fileB = s.fileB := rfl
@[simp] theorem goIdle_fileR : (goIdle s).fileR = s.fileR := rfl
@[simp] theorem goIdle_dig : (goIdle s).dig = s.dig := rfl
@[simp] theorem goIdle_blk : (goIdle s).blk = s.blk := rfl
@[simp] theorem goIdle_pendOp : (goIdle s).pendOp = none := rfl
@[simp] theorem goIdle_pendLowchk : (goIdle s).pendLowchk = s.pendLowchk := rfl
@[simp] theorem goIdle_cyclesLeft : (goIdle s).cyclesLeft = 0 := rfl
@[simp] theorem goIdle_work : (goIdle s).work = Working.zero := rfl
@[simp] theorem goIdle_resp : (goIdle s).resp = s.resp := rfl
@[simp] theorem goIdle_inputs : (goIdle s).inputs = s.inputs := rfl

/-! ### endCommand -/

@[simp] theorem endCommand_irqen (c : BitVec 4) : (endCommand c s).irqen = s.irqen := rfl
@[simp] theorem endCommand_lowchk (c : BitVec 4) : (endCommand c s).lowchk = s.lowchk := rfl
@[simp] theorem endCommand_busy (c : BitVec 4) : (endCommand c s).busy = false := rfl
@[simp] theorem endCommand_done (c : BitVec 4) : (endCommand c s).done = true := rfl
@[simp] theorem endCommand_ovr (c : BitVec 4) : (endCommand c s).ovr = s.ovr := rfl
@[simp] theorem endCommand_accerr (c : BitVec 4) : (endCommand c s).accerr = s.accerr := rfl
@[simp] theorem endCommand_err (c : BitVec 4) : (endCommand c s).err = c := rfl
@[simp] theorem endCommand_fileA (c : BitVec 4) : (endCommand c s).fileA = s.fileA := rfl
@[simp] theorem endCommand_fileB (c : BitVec 4) : (endCommand c s).fileB = s.fileB := rfl
@[simp] theorem endCommand_fileR (c : BitVec 4) : (endCommand c s).fileR = s.fileR := rfl
@[simp] theorem endCommand_dig (c : BitVec 4) : (endCommand c s).dig = s.dig := rfl
@[simp] theorem endCommand_blk (c : BitVec 4) : (endCommand c s).blk = s.blk := rfl
@[simp] theorem endCommand_pendOp (c : BitVec 4) : (endCommand c s).pendOp = none := rfl
@[simp] theorem endCommand_pendLowchk (c : BitVec 4) : (endCommand c s).pendLowchk = s.pendLowchk := rfl
@[simp] theorem endCommand_cyclesLeft (c : BitVec 4) : (endCommand c s).cyclesLeft = 0 := rfl
@[simp] theorem endCommand_work (c : BitVec 4) : (endCommand c s).work = Working.zero := rfl
@[simp] theorem endCommand_resp (c : BitVec 4) : (endCommand c s).resp = s.resp := rfl
@[simp] theorem endCommand_inputs (c : BitVec 4) : (endCommand c s).inputs = s.inputs := rfl

/-! ### popPins -/

@[simp] theorem popPins_irqen : (popPins s).irqen = s.irqen := rfl
@[simp] theorem popPins_lowchk : (popPins s).lowchk = s.lowchk := rfl
@[simp] theorem popPins_busy : (popPins s).busy = s.busy := rfl
@[simp] theorem popPins_done : (popPins s).done = s.done := rfl
@[simp] theorem popPins_ovr : (popPins s).ovr = s.ovr := rfl
@[simp] theorem popPins_accerr : (popPins s).accerr = s.accerr := rfl
@[simp] theorem popPins_err : (popPins s).err = s.err := rfl
@[simp] theorem popPins_fileA : (popPins s).fileA = s.fileA := rfl
@[simp] theorem popPins_fileB : (popPins s).fileB = s.fileB := rfl
@[simp] theorem popPins_fileR : (popPins s).fileR = s.fileR := rfl
@[simp] theorem popPins_dig : (popPins s).dig = s.dig := rfl
@[simp] theorem popPins_blk : (popPins s).blk = s.blk := rfl
@[simp] theorem popPins_pendOp : (popPins s).pendOp = s.pendOp := rfl
@[simp] theorem popPins_pendLowchk : (popPins s).pendLowchk = s.pendLowchk := rfl
@[simp] theorem popPins_cyclesLeft : (popPins s).cyclesLeft = s.cyclesLeft := rfl
@[simp] theorem popPins_work : (popPins s).work = s.work := rfl
@[simp] theorem popPins_resp : (popPins s).resp = s.resp := rfl
@[simp] theorem popPins_inputs : (popPins s).inputs = s.inputs.tail := rfl

/-! ### presentPins -/

@[simp] theorem presentPins_irqen (ps : List Pins) : (presentPins ps s).irqen = s.irqen := rfl
@[simp] theorem presentPins_lowchk (ps : List Pins) : (presentPins ps s).lowchk = s.lowchk := rfl
@[simp] theorem presentPins_busy (ps : List Pins) : (presentPins ps s).busy = s.busy := rfl
@[simp] theorem presentPins_done (ps : List Pins) : (presentPins ps s).done = s.done := rfl
@[simp] theorem presentPins_ovr (ps : List Pins) : (presentPins ps s).ovr = s.ovr := rfl
@[simp] theorem presentPins_accerr (ps : List Pins) : (presentPins ps s).accerr = s.accerr := rfl
@[simp] theorem presentPins_err (ps : List Pins) : (presentPins ps s).err = s.err := rfl
@[simp] theorem presentPins_fileA (ps : List Pins) : (presentPins ps s).fileA = s.fileA := rfl
@[simp] theorem presentPins_fileB (ps : List Pins) : (presentPins ps s).fileB = s.fileB := rfl
@[simp] theorem presentPins_fileR (ps : List Pins) : (presentPins ps s).fileR = s.fileR := rfl
@[simp] theorem presentPins_dig (ps : List Pins) : (presentPins ps s).dig = s.dig := rfl
@[simp] theorem presentPins_blk (ps : List Pins) : (presentPins ps s).blk = s.blk := rfl
@[simp] theorem presentPins_pendOp (ps : List Pins) : (presentPins ps s).pendOp = s.pendOp := rfl
@[simp] theorem presentPins_pendLowchk (ps : List Pins) : (presentPins ps s).pendLowchk = s.pendLowchk := rfl
@[simp] theorem presentPins_cyclesLeft (ps : List Pins) : (presentPins ps s).cyclesLeft = s.cyclesLeft := rfl
@[simp] theorem presentPins_work (ps : List Pins) : (presentPins ps s).work = s.work := rfl
@[simp] theorem presentPins_resp (ps : List Pins) : (presentPins ps s).resp = s.resp := rfl
@[simp] theorem presentPins_inputs (ps : List Pins) : (presentPins ps s).inputs = ps ++ s.inputs := rfl

/-! ### tick -/

@[simp] theorem tick_irqen : (tick s).irqen = s.irqen := by unfold tick; split <;> rfl
@[simp] theorem tick_lowchk : (tick s).lowchk = s.lowchk := by unfold tick; split <;> rfl
@[simp] theorem tick_busy : (tick s).busy = s.busy := by unfold tick; split <;> rfl
@[simp] theorem tick_done : (tick s).done = s.done := by unfold tick; split <;> rfl
@[simp] theorem tick_ovr : (tick s).ovr = s.ovr := by unfold tick; split <;> rfl
@[simp] theorem tick_accerr : (tick s).accerr = s.accerr := by unfold tick; split <;> rfl
@[simp] theorem tick_err : (tick s).err = s.err := by unfold tick; split <;> rfl
@[simp] theorem tick_fileA : (tick s).fileA = s.fileA := by unfold tick; split <;> rfl
@[simp] theorem tick_fileB : (tick s).fileB = s.fileB := by unfold tick; split <;> rfl
@[simp] theorem tick_fileR : (tick s).fileR = s.fileR := by unfold tick; split <;> rfl
@[simp] theorem tick_dig : (tick s).dig = s.dig := by unfold tick; split <;> rfl
@[simp] theorem tick_blk : (tick s).blk = s.blk := by unfold tick; split <;> rfl
@[simp] theorem tick_pendOp : (tick s).pendOp = s.pendOp := by unfold tick; split <;> rfl
@[simp] theorem tick_pendLowchk : (tick s).pendLowchk = s.pendLowchk := by unfold tick; split <;> rfl
@[simp] theorem tick_cyclesLeft : (tick s).cyclesLeft = if s.busy then s.cyclesLeft - 1 else s.cyclesLeft := by
  unfold tick; split <;> rfl
@[simp] theorem tick_resp : (tick s).resp = s.resp := by unfold tick; split <;> rfl
@[simp] theorem tick_inputs : (tick s).inputs = s.inputs := by unfold tick; split <;> rfl

end Machine
end Sys2Proof
end

