-- ==== Sys2Proof/Laws/Ops.lean ====
section
/-! SUPPORT. What each shared operation can do, said once: values of files, the CMD write, a transfer, one edge. -/

namespace Sys2Proof
namespace Machine

/-! ### Files as numbers -/

theorem valWords_lt : ∀ ws : List Word, valWords ws < 2 ^ (32 * ws.length)
  | [] => by simp [valWords]
  | w :: ws => by
    have ih := valWords_lt ws
    have hw := w.isLt
    have hp : 2 ^ (32 * (w :: ws).length) = 2 ^ 32 * 2 ^ (32 * ws.length) := by
      rw [← pow_add]; congr 1; simp only [List.length_cons]; ring
    rw [valWords, hp]
    nlinarith

theorem valWords_inj : ∀ {ws vs : List Word}, ws.length = vs.length → valWords ws = valWords vs → ws = vs
  | [], [], _, _ => rfl
  | w :: ws, v :: vs, hl, hv => by
    simp only [valWords] at hv
    have hw := w.isLt
    have hv' := v.isLt
    have h1 : w.toNat = v.toNat := by omega
    have h2 : valWords ws = valWords vs := by omega
    rw [BitVec.eq_of_toNat_eq h1, valWords_inj (by simpa using hl) h2]

theorem val_lt (f : Vector Word 8) : val f < 2 ^ 256 := by
  have h := valWords_lt f.toList
  simpa [val] using h

theorem val_inj {f g : Vector Word 8} (h : val f = val g) : f = g := by
  have := valWords_inj (by simp) h
  exact Vector.toList_inj.mp this

/-- `words8` loses nothing of a number below 2^256 (R8). -/
theorem val_words8 (x : Nat) : val (words8 x) = x % 2 ^ 256 := by
  simp [val, words8, Vector.toList_ofFn, List.ofFn_succ, valWords, Nat.shiftRight_eq_div_pow]
  omega

theorem words8_val (f : Vector Word 8) : words8 (val f) = f :=
  val_inj (by rw [val_words8, Nat.mod_eq_of_lt (val_lt f)])

theorem prime_lt : Config.prime < 2 ^ 255 := by decide

theorem prime_pos : 0 < Config.prime := by decide

/-! ### The sequencer -/

/-- Everything a CMD write can do (R174). -/
theorem commandWrite_cases (w : Word) (s : State) :
    (s.busy = true ∧ commandWrite w s = flagOverrun s) ∨
    (s.busy = false ∧ ∃ i, decode w = .ok i ∧ commandWrite w s = accept i s) ∨
    (s.busy = false ∧ (∃ e, decode w = .error e) ∧ commandWrite w s = report errIllegalCmd s) := by
  unfold commandWrite
  cases hb : s.busy
  · cases hd : decode w <;> simp
  · simp

/-- A completion always has a next state. -/
theorem exec_eq (i : Instr) (s : State) : exec i s = .next (match i with
    | .montMul => endCommand errNone (putR (words8 (fmul (mulOperandA s) (mulOperandB s))) s)
    | .fieldRed => endCommand errNone (putR (words8 (redOperand s % Config.prime)) s)
    | .x25519 => scalarMulEnd (ladder (scalarOperand s) (pointOperand s)) s
    | .x25519Base => scalarMulEnd (ladder (scalarOperand s) Config.uBase) s
    | .md5Init => endCommand errNone (putDig (digOfChain md5Iv) s)
    | .md5Block => endCommand errNone (putDig (digOfChain (compress (chainOfDig s.dig) s.blk)) s)
    | .zeroize => endCommand errNone (zeroFiles s)) := by
  cases i <;> rfl

/-! ### One transfer -/

/-- Everything a transfer can do: an error answer, a locked access, a read, or a write. -/
theorem busTransfer_cases (t : Transfer) (s : State) :
    (t.legal = false ∧ busTransfer t s = respond (some errorAnswer) s) ∨
    (t.legal = true ∧ locked s (regAt t.addr) = true ∧
      (busTransfer t s = respond (some (readAnswer 0#32)) (flagAccessError s) ∨
       busTransfer t s = respond (some writeAnswer) (flagAccessError s))) ∨
    (t.legal = true ∧ locked s (regAt t.addr) = false ∧
      (busTransfer t s = respond (some (readAnswer (readReg s (regAt t.addr)))) s ∨
       busTransfer t s = respond (some writeAnswer) (writeReg (regAt t.addr) t.wdata s))) := by
  unfold busTransfer busRead busWrite
  cases ht : t.legal <;> cases hl : locked s (regAt t.addr) <;> cases hw : t.we <;> simp

/-- A legal read, when the register at its offset is known (R54, R58). -/
theorem busTransfer_read {t : Transfer} {reg : Reg} (hl : t.legal = true) (hw : t.we = false)
    (hr : regAt t.addr = reg) (s : State) :
    busTransfer t s = if locked s reg then respond (some (readAnswer 0#32)) (flagAccessError s)
      else respond (some (readAnswer (readReg s reg))) s := by
  simp [busTransfer, hl, hw, busRead, hr]

/-- A legal write, when the register at its offset is known (R55, R58). -/
theorem busTransfer_write {t : Transfer} {reg : Reg} (hl : t.legal = true) (hw : t.we = true)
    (hr : regAt t.addr = reg) (s : State) :
    busTransfer t s = respond (some writeAnswer)
      (if locked s reg then flagAccessError s else writeReg reg t.wdata s) := by
  simp [busTransfer, hl, hw, busWrite, hr]

/-- A transfer of another width, or not aligned (R56). -/
theorem busTransfer_illegal {t : Transfer} (hl : t.legal = false) (s : State) :
    busTransfer t s = respond (some errorAnswer) s := by
  simp [busTransfer, hl]

theorem Transfer.legal_iff (t : Transfer) : t.legal = true ↔ t.size = 2#2 ∧ t.addr.toNat % 4 = 0 := by
  simp [Transfer.legal]

/-! ### One edge -/

/-- Everything an edge can do: reset, a completion, a stop for want of a command, or no completion. -/
theorem clockEdge_cases (p : Pins) (s : State) :
    (p.rstN = false ∧ clockEdge p s = .next (resetEdge p.bus s)) ∨
    (p.rstN = true ∧ completionDue s = true ∧ clockEdge p s = complete (busCycle p.bus s)) ∨
    (p.rstN = true ∧ completionDue s = false ∧ clockEdge p s = .next (busCycle p.bus (tick s))) := by
  unfold clockEdge
  cases p.rstN <;> cases completionDue s <;> simp

end Machine
end Sys2Proof
end

