-- ==== Sys2Proof/Laws/Engine.lean ====
section
/-! SUPPORT. What a cycle of the bus and an edge leave alone. -/

namespace Sys2Proof
namespace Machine

/-! ### What a bus cycle leaves alone -/

/-- No bus cycle touches the result file (R32). -/
@[simp] theorem busCycle_fileR (bus : Option Transfer) (s : State) : (busCycle bus s).fileR = s.fileR := by
  cases bus with
  | none => rfl
  | some t =>
    rw [busCycle]
    rcases busTransfer_cases t s with ⟨_, h⟩ | ⟨_, _, h | h⟩ | ⟨_, _, h | h⟩ <;> rw [h] <;> try rfl
    cases regAt t.addr <;> try rfl
    rcases commandWrite_cases t.wdata s with ⟨_, h⟩ | ⟨_, i, _, h⟩ | ⟨_, _, h⟩ <;> simp [writeReg, h]

/-- No bus cycle touches the inputs of the cycles to come. -/
@[simp] theorem busCycle_inputs (bus : Option Transfer) (s : State) : (busCycle bus s).inputs = s.inputs := by
  cases bus with
  | none => rfl
  | some t =>
    rw [busCycle]
    rcases busTransfer_cases t s with ⟨_, h⟩ | ⟨_, _, h | h⟩ | ⟨_, _, h | h⟩ <;> rw [h] <;> try rfl
    cases regAt t.addr <;> try rfl
    rcases commandWrite_cases t.wdata s with ⟨_, h⟩ | ⟨_, i, _, h⟩ | ⟨_, _, h⟩ <;> simp [writeReg, h]

/-- While a command is in flight a bus cycle can change CTRL, the flags DONE, OVR and ACCERR, and its answer, and
nothing else (R58, R173); it never sets DONE. -/
theorem busCycle_of_busy (bus : Option Transfer) (s : State) (hb : s.busy = true) :
    ∃ irqen lowchk done ovr accerr resp, (done = true → s.done = true) ∧
      busCycle bus s = { s with
        irqen := irqen, lowchk := lowchk, done := done, ovr := ovr, accerr := accerr, resp := resp } := by
  cases bus with
  | none => exact ⟨_, _, _, _, _, none, id, rfl⟩
  | some t =>
    rw [busCycle]
    rcases busTransfer_cases t s with ⟨_, h⟩ | ⟨_, _, h | h⟩ | ⟨_, hl, h | h⟩ <;> rw [h]
    · exact ⟨_, _, _, _, _, _, id, rfl⟩
    · exact ⟨_, _, _, _, _, _, id, rfl⟩
    · exact ⟨_, _, _, _, _, _, id, rfl⟩
    · exact ⟨_, _, _, _, _, _, id, rfl⟩
    · simp only [locked, hb, Bool.and_true] at hl
      cases hr : regAt t.addr <;> simp only [hr, Reg.isData] at hl <;> try cases hl
      · exact ⟨_, _, _, _, _, _, id, rfl⟩
      · exact ⟨_, _, _, _, _, _, id, rfl⟩
      · exact ⟨_, _, s.done && !t.wdata.getLsbD 1, _, _, _, by simp +contextual, rfl⟩
      · rw [writeReg, commandWrite, if_pos hb]
        exact ⟨_, _, _, _, _, _, id, rfl⟩
      · exact ⟨_, _, _, _, _, _, id, rfl⟩

/-- While idle a bus cycle either accepts a command, or leaves the sequencer and its hidden state alone (R170, R171). -/
theorem busCycle_of_idle (bus : Option Transfer) (s : State) (hb : s.busy = false) :
    (∃ i, busCycle bus s = respond (some writeAnswer) (accept i s)) ∨
    ((busCycle bus s).busy = false ∧ (busCycle bus s).pendOp = s.pendOp ∧
      (busCycle bus s).cyclesLeft = s.cyclesLeft ∧ (busCycle bus s).work = s.work ∧
      ((busCycle bus s).err = s.err ∨ (busCycle bus s).err = errIllegalCmd)) := by
  cases bus with
  | none => exact .inr ⟨hb, rfl, rfl, rfl, .inl rfl⟩
  | some t =>
    rw [busCycle]
    rcases busTransfer_cases t s with ⟨_, h⟩ | ⟨_, _, h | h⟩ | ⟨_, _, h | h⟩ <;> rw [h] <;>
      try exact .inr ⟨hb, rfl, rfl, rfl, .inl rfl⟩
    cases regAt t.addr <;> try exact .inr ⟨hb, rfl, rfl, rfl, .inl rfl⟩
    rcases commandWrite_cases t.wdata s with ⟨hb', _⟩ | ⟨_, i, _, h⟩ | ⟨_, _, h⟩
    · simp [hb] at hb'
    · exact .inl ⟨i, by rw [writeReg, h]⟩
    · rw [writeReg, h]; exact .inr ⟨hb, rfl, rfl, rfl, .inr rfl⟩

/-! ### Edges -/

@[simp] theorem popPins_of_presentPins (p : Pins) (s : State) : popPins (presentPins [p] s) = s := rfl

@[simp] theorem nextPins_of_presentPins (p : Pins) (s : State) : nextPins (presentPins [p] s) = p := rfl

/-- When the completion edge is the next one. -/
theorem completionDue_iff (s : State) : completionDue s = true ↔ s.busy = true ∧ s.cyclesLeft ≤ 1 := by
  simp [completionDue]

/-- The completion of a command is its `exec`. -/
theorem complete_of_pendOp {s : State} {i : Instr} (h : s.pendOp = some i) : complete s = exec i s := by
  simp [complete, h]

end Machine
end Sys2Proof
end

