-- ==== Sys2Proof/Laws/Flags.lean ====
section
/-! SUPPORT. The control and status words as numbers, and the bits a host polls (spec/10_state.md R25, R26). -/

namespace Sys2Proof
namespace Machine

theorem ctrlWord_toNat (s : State) : (ctrlWord s).toNat = s.irqen.toNat + 2 * s.lowchk.toNat := by
  cases h1 : s.irqen <;> cases h2 : s.lowchk <;> simp [ctrlWord, h1, h2, bit]

theorem statusWord_toNat (s : State) : (statusWord s).toNat =
    s.busy.toNat + 2 * s.done.toNat + 4 * s.ovr.toNat + 8 * s.accerr.toNat + 16 * s.err.toNat := by
  have he := s.err.isLt
  cases h1 : s.busy <;> cases h2 : s.done <;> cases h3 : s.ovr <;> cases h4 : s.accerr <;>
    simp only [statusWord, h1, h2, h3, h4, bit, BitVec.toNat_setWidth, toNat_append_add] <;> simp <;> omega

/-- Bit 0 of STATUS is BUSY. -/
theorem statusWord_busy (s : State) : (statusWord s).getLsbD 0 = s.busy := by
  simp only [statusWord, bit, BitVec.getLsbD_setWidth, BitVec.getLsbD_append]
  cases s.busy <;> simp

/-- Bit 1 of STATUS is DONE. -/
theorem statusWord_done (s : State) : (statusWord s).getLsbD 1 = s.done := by
  simp only [statusWord, bit, BitVec.getLsbD_setWidth, BitVec.getLsbD_append]
  cases s.done <;> simp

end Machine
end Sys2Proof
end

