-- ==== Sys2Proof/Laws/Hostseq.lean ====
section
/-! SUPPORT. What a host program does, said once: a transfer while idle or in flight, a poll, and programs one after
another (spec/30_encoding.md R88, R89). -/

namespace Sys2Proof
namespace Machine

/-- A transfer presented by the host takes effect before, and instead of, whatever stood on the ports next. -/
theorem runTransfer_eq (p : Pins) (s : State) : runTransfer p s = clockEdge p s := rfl

/-- While idle a host transfer is the transfer and nothing else. -/
theorem runTransfer_of_idle (t : Transfer) (s : State) (hb : s.busy = false) :
    runTransfer { rstN := true, bus := some t } s = .next (busTransfer t s) := by
  simp [runTransfer_eq, clockEdge, completionDue, tick, busCycle, hb]

/-- While a command is in flight and not due, a host transfer is the transfer on the state one cycle on. -/
theorem runTransfer_of_busy (t : Transfer) (s : State) (hb : s.busy = true) (hc : 1 < s.cyclesLeft) :
    runTransfer { rstN := true, bus := some t } s = .next (busTransfer t (tick s)) := by
  simp [runTransfer_eq, clockEdge, completionDue, busCycle, hb, Nat.not_le.mpr hc]

/-- When the command in flight is due, a host transfer is the transfer and then the completion. -/
theorem runTransfer_of_due (t : Transfer) (s : State) (i : Instr) (hb : s.busy = true) (hc : s.cyclesLeft ≤ 1)
    (hp : s.pendOp = some i) :
    runTransfer { rstN := true, bus := some t } s = exec i (busTransfer t s) := by
  have hk : (busTransfer t s).pendOp = some i := by
    obtain ⟨_, _, _, _, _, _, -, h⟩ := busCycle_of_busy (some t) s hb
    rw [busCycle] at h
    rw [h, hp]
  simp [runTransfer_eq, clockEdge, completionDue, busCycle, complete, hb, hc, hk]

/-- A STATUS read answers STATUS and changes nothing, busy or not. -/
theorem busTransfer_status (s : State) :
    busTransfer (readTransfer 0x008#12) s = respond (some (readAnswer (statusWord s))) s := rfl

/-- The bit a WAIT tests after a STATUS read is DONE as the read found it. -/
theorem lastReadDone_status (s t : State) (h : t.resp = some (readAnswer (statusWord s))) :
    lastReadDone t = s.done := by
  simp only [lastReadDone, h, readAnswer, statusWord_done]

/-- A program that has ended without a word read is its rest. -/
@[simp] theorem HostOutcome.done_nil_andThen (s : State) (rest : State → HostOutcome) :
    (HostOutcome.done [] s).andThen rest = rest s := by
  simp only [HostOutcome.andThen]
  cases rest s <;> rfl

/-- What comes after a program and its rest comes after the rest. -/
theorem HostOutcome.andThen_assoc (o : HostOutcome) (f g : State → HostOutcome) :
    (o.andThen f).andThen g = o.andThen fun s => (f s).andThen g := by
  cases o with
  | done values s =>
    simp only [HostOutcome.andThen]
    cases f s with
    | done more t => simp only; cases g t <;> simp only [List.append_assoc]
    | _ => rfl
  | _ => rfl

/-- A program that reaches its end continues with the next one, and the words read stand one after the other. -/
theorem runHost_append (polls : Nat) (ops ops' : List HostOp) (s : State) :
    runHost polls (ops ++ ops') s = (runHost polls ops s).andThen (runHost polls ops') := by
  induction ops generalizing s with
  | nil => simp [runHost]
  | cons op ops ih =>
    rw [List.cons_append, runHost, runHost, HostOutcome.andThen_assoc, funext ih]

/-- One line while idle: a write gives the host no word. -/
theorem runHost_write (polls : Nat) (off : BitVec 12) (w : Word) (ops : List HostOp) (s : State)
    (hb : s.busy = false) :
    runHost polls (.transfer (writePins off w) :: ops) s = runHost polls ops (busTransfer (writeTransfer off w) s) := by
  have h := runTransfer_of_idle (writeTransfer off w) s hb
  simp only [runHost, runOp, runLine, writePins, h, wordsRead]
  cases hr : (busTransfer (writeTransfer off w) s).resp <;>
    simp only [writeTransfer, if_true, HostOutcome.done_nil_andThen]

/-! ### WAIT -/

/-- A poll while idle. -/
theorem runTransfer_poll_of_idle (s : State) (hb : s.busy = false) :
    runTransfer pollPins s = .next (respond (some (readAnswer (statusWord s))) s) :=
  runTransfer_of_idle _ s hb

/-- A poll while a command is in flight and not due. -/
theorem runTransfer_poll_of_busy (s : State) (hb : s.busy = true) (hc : 1 < s.cyclesLeft) :
    runTransfer pollPins s = .next (respond (some (readAnswer (statusWord (tick s)))) (tick s)) :=
  runTransfer_of_busy _ s hb hc

/-- A poll in the completion's cycle reads the state before the completion (R186). -/
theorem runTransfer_poll_of_due (s : State) (i : Instr) (hb : s.busy = true) (hc : s.cyclesLeft ≤ 1)
    (hp : s.pendOp = some i) :
    runTransfer pollPins s = exec i (respond (some (readAnswer (statusWord s))) s) :=
  runTransfer_of_due _ s i hb hc hp

/-- WAIT on a block that is done ends at its first poll. -/
theorem runWait_of_done (polls : Nat) (s : State) (hb : s.busy = false) (hd : s.done = true) :
    runWait (polls + 1) s = .done [statusWord s] (respond (some (readAnswer (statusWord s))) s) := by
  simp only [runWait, runTransfer_poll_of_idle s hb]
  rw [lastReadDone_status s _ rfl, hd]
  rfl

/-- What a completion does to what a WAIT looks at. -/
theorem exec_idle_done (i : Instr) (s : State) :
    ∃ t, exec i s = .next t ∧ t.busy = false ∧ t.done = true ∧ t.resp = s.resp := by
  cases i <;> exact ⟨_, rfl, rfl, rfl, rfl⟩

/-- WAIT on a command in flight ends, with one poll more than the cycles left, in the state the completion leaves. The
completion finds the state as the WAIT found it, but for the counter, the working registers and the bus's answer. -/
theorem runWait_of_busy (polls : Nat) (s : State) (i : Instr) (hb : s.busy = true) (hd : s.done = false)
    (hp : s.pendOp = some i) (hc : s.cyclesLeft ≤ polls + 1) :
    ∃ left work resp t, exec i { s with cyclesLeft := left, work := work, resp := resp } = .next t ∧
      runWait (polls + 2) s = .done [statusWord t] (respond (some (readAnswer (statusWord t))) t) := by
  induction polls generalizing s with
  | zero =>
    obtain ⟨t, ht, h1, h2, h3⟩ := exec_idle_done i (respond (some (readAnswer (statusWord s))) s)
    refine ⟨_, _, _, t, ht, ?_⟩
    rw [runWait, runTransfer_poll_of_due s i hb hc hp, ht]
    simp only [lastReadDone_status s t h3, hd]
    exact runWait_of_done 0 t h1 h2
  | succ polls ih =>
    by_cases hdue : s.cyclesLeft ≤ 1
    · obtain ⟨t, ht, h1, h2, h3⟩ := exec_idle_done i (respond (some (readAnswer (statusWord s))) s)
      refine ⟨_, _, _, t, ht, ?_⟩
      rw [runWait, runTransfer_poll_of_due s i hb hdue hp, ht]
      simp only [lastReadDone_status s t h3, hd]
      exact runWait_of_done (polls + 1) t h1 h2
    · have hu : ∃ work resp, respond (some (readAnswer (statusWord (tick s)))) (tick s) =
          { s with cyclesLeft := s.cyclesLeft - 1, work := work, resp := resp } := by
        rw [tick, if_pos hb]; exact ⟨_, _, rfl⟩
      obtain ⟨work, resp, hu⟩ := hu
      have hdone := lastReadDone_status (tick s) _ (rfl : (respond (some (readAnswer (statusWord (tick s)))) (tick s)).resp = _)
      rw [hu] at hdone
      have htick : (tick s).done = false := by rw [tick, if_pos hb]; exact hd
      obtain ⟨left', work', resp', t, ht, hw⟩ :=
        ih { s with cyclesLeft := s.cyclesLeft - 1, work := work, resp := resp } hb hd hp (by simp; omega)
      refine ⟨left', work', resp', t, ht, ?_⟩
      rw [runWait, runTransfer_poll_of_busy s hb (by omega), hu]
      simp only [hdone, htick]
      exact hw

/-! ### Bytes and words -/

/-- The bytes of the words of a byte string are the string, if it fills whole words (R60, R89). -/
theorem bytesOfWords_wordsOfBytes : ∀ (n : Nat) (bytes : List Byte), bytes.length = 4 * n →
    (wordsOfBytes bytes).length = n ∧ bytesOfWords (wordsOfBytes bytes) = bytes
  | 0, bytes, h => by
    obtain rfl : bytes = [] := by simpa using h
    exact ⟨rfl, rfl⟩
  | n + 1, b0 :: b1 :: b2 :: b3 :: bytes, h => by
    obtain ⟨h1, h2⟩ := bytesOfWords_wordsOfBytes n bytes (by simp at h; omega)
    have h0 := b0.isLt
    have h1' := b1.isLt
    have h2' := b2.isLt
    have h3' := b3.isLt
    have byte : ∀ (k : Nat) (b : Byte), (le [b0, b1, b2, b3] % 2 ^ 32) / 2 ^ (8 * k) % 2 ^ 8 = b.toNat →
        byteOfWord (BitVec.ofNat 32 (le [b0, b1, b2, b3])) k = b := fun k b hk =>
      BitVec.eq_of_toNat_eq (by rw [byteOfWord_toNat, BitVec.toNat_ofNat, hk])
    refine ⟨by simp [wordsOfBytes, h1], ?_⟩
    rw [wordsOfBytes, bytesOfWords, h2, byte 0 b0 (by simp [le]; omega), byte 1 b1 (by simp [le]; omega),
      byte 2 b2 (by simp [le]; omega), byte 3 b3 (by simp [le]; omega)]
  | n + 1, [], h => by simp at h
  | n + 1, [_], h => by simp at h; omega
  | n + 1, [_, _], h => by simp at h; omega
  | n + 1, [_, _, _], h => by simp at h; omega

/-- Byte i of the bytes of a list of words is byte (i mod 4) of word floor(i/4) (R60). -/
theorem bytesOfWords_getElem? : ∀ (ws : List Word) (i : Nat),
    (bytesOfWords ws)[i]? = (ws[i / 4]?).map fun w => byteOfWord w (i % 4)
  | [], i => by simp [bytesOfWords]
  | w :: ws, 0 | w :: ws, 1 | w :: ws, 2 | w :: ws, 3 => by simp [bytesOfWords]
  | w :: ws, i + 4 => by
    simp [bytesOfWords, bytesOfWords_getElem? ws i, show (i + 4) / 4 = i / 4 + 1 by omega]

end Machine
end Sys2Proof
end

