-- ==== Sys2Proof/Laws/PerInstr.lean ====
section
/-! SUPPORT. Facts about every command as syntax, one lemma per constructor. -/

namespace Sys2Proof
namespace Laws

/-- The fields of a command's word pass the well-formedness checks, and splitting the word gives them back
(spec/30_encoding.md R80, R82). -/
def WordFields.Statement (i : Instr) : Prop :=
  (formatOf i).wellFormed = true ∧ splitWord (encode i) = formatOf i

theorem WordFields.montMul : WordFields.Statement .montMul := by unfold WordFields.Statement; decide
theorem WordFields.fieldRed : WordFields.Statement .fieldRed := by unfold WordFields.Statement; decide
theorem WordFields.x25519 : WordFields.Statement .x25519 := by unfold WordFields.Statement; decide
theorem WordFields.x25519Base : WordFields.Statement .x25519Base := by unfold WordFields.Statement; decide
theorem WordFields.md5Init : WordFields.Statement .md5Init := by unfold WordFields.Statement; decide
theorem WordFields.md5Block : WordFields.Statement .md5Block := by unfold WordFields.Statement; decide
theorem WordFields.zeroize : WordFields.Statement .zeroize := by unfold WordFields.Statement; decide

end Laws
end Sys2Proof
end

