-- ==== Sys2Proof/Laws/Run.lean ====
section
/-! SUPPORT. Runs of several edges, one edge at a time. -/

namespace Sys2Proof
namespace Machine

theorem run_of_step_next {M : Host.Core} {s t : M.State} (h : M.step s = .next t) (n : Nat) :
    M.run (n + 1) s = M.run n t := by
  simp only [Host.Core.run, h]

theorem run_of_step_fault {M : Host.Core} {s : M.State} {f : M.Fault} (h : M.step s = .fault f) (n : Nat) :
    M.run (n + 1) s = .fault f := by
  simp only [Host.Core.run, h]

/-- One edge of a run that goes on. -/
theorem core_run_of_next {s t : State} (h : step s = .next t) (n : Nat) : core.run (n + 1) s = core.run n t :=
  run_of_step_next (M := core) h n

/-- A run that stops at its first edge. -/
theorem core_run_of_fault {s : State} {f : Fault} (h : step s = .fault f) (n : Nat) :
    core.run (n + 1) s = .fault f :=
  run_of_step_fault (M := core) h n

theorem core_run_zero (s : State) : core.run 0 s = .next s := rfl

end Machine
end Sys2Proof
end

