-- ==== Sys2Proof/Laws/Units.lean ====
section
/-! SUPPORT. The range of every result of the field units and the ladder (spec/40_field.md R108, spec/41_x25519.md R125). -/

namespace Sys2Proof
namespace Machine

theorem fadd_lt (x y : Nat) : fadd x y < Config.prime := Nat.mod_lt _ prime_pos

theorem fsub_lt (x y : Nat) : fsub x y < Config.prime := Nat.mod_lt _ prime_pos

theorem fmul_lt (x y : Nat) : fmul x y < Config.prime := Nat.mod_lt _ prime_pos

theorem decodeU_lt (v : Nat) : decodeU v < Config.prime := Nat.mod_lt _ prime_pos

theorem ladder_lt (k u : Nat) : ladder k u < Config.prime := fmul_lt _ _

/-- A field element survives its encoding in R (R87, R125). -/
theorem val_words8_of_lt {r : Nat} (h : r < Config.prime) : val (words8 r) = r := by
  have := prime_lt
  rw [val_words8, Nat.mod_eq_of_lt (by omega)]

/-- What R receives from a scalar multiplication has the ladder's value, zero included (R126). -/
theorem val_scalarMulResult (lowchk : Bool) {r : Nat} (h : r < Config.prime) :
    val (scalarMulResult lowchk r) = r := by
  unfold scalarMulResult
  split
  · rename_i hz
    obtain ⟨-, rfl⟩ : lowchk = true ∧ r = 0 := by simpa using hz
    exact val_words8_of_lt prime_pos
  · exact val_words8_of_lt h

end Machine
end Sys2Proof
end

