-- ==== Sys2Proof/Tests/Slice0.lean ====
section
/-! SUPPORT. The model's own tests: words written out from the spec's encoding, the spec's vectors
(spec/95_test_vectors.md, whose numbers each comment names), and a witness for the hypotheses of every statement. -/

namespace Sys2Proof
namespace Tests

open Sys2Proof.Machine

/-! ### Well-formedness: an ill-formed term for each check -/

theorem test_rsv_set_is_ill_formed : ({ opc := 0x1#4, rsv := 1#28 } : CmdFormat).wellFormed = false := by decide
theorem test_opc_zero_is_ill_formed : ({ opc := 0x0#4, rsv := 0#28 } : CmdFormat).wellFormed = false := by decide
theorem test_opc_eight_is_ill_formed : ({ opc := 0x8#4, rsv := 0#28 } : CmdFormat).wellFormed = false := by decide
theorem test_opc_one_and_seven_are_well_formed :
    ({ opc := 0x1#4, rsv := 0#28 } : CmdFormat).wellFormed = true ∧
    ({ opc := 0x7#4, rsv := 0#28 } : CmdFormat).wellFormed = true := by decide
theorem test_narrow_transfer_is_illegal :
    ({ we := true, addr := 0x040#12, size := 0#2, wdata := 0xff#32 } : Transfer).legal = false := by decide
theorem test_reserved_size_is_illegal :
    ({ we := true, addr := 0x040#12, size := 3#2, wdata := 0xff#32 } : Transfer).legal = false := by decide
theorem test_misaligned_transfer_is_illegal : (readTransfer 0x042#12).legal = false := by decide

/-! ### Decoding: R82's words bit by bit, and as bytes in the order of R60 -/

theorem test_decode_montMul : decode 0b00000000000000000000000000000001#32 = .ok .montMul := by decide
theorem test_decode_fieldRed : decode 0b00000000000000000000000000000010#32 = .ok .fieldRed := by decide
theorem test_decode_x25519 : decode 0b00000000000000000000000000000011#32 = .ok .x25519 := by decide
theorem test_decode_x25519Base : decode 0b00000000000000000000000000000100#32 = .ok .x25519Base := by decide
theorem test_decode_md5Init : decode 0b00000000000000000000000000000101#32 = .ok .md5Init := by decide
theorem test_decode_md5Block : decode 0b00000000000000000000000000000110#32 = .ok .md5Block := by decide
theorem test_decode_zeroize : decode 0b00000000000000000000000000000111#32 = .ok .zeroize := by decide

theorem test_decode_rejects_by_name :
    decode 0x00000011#32 = .error .reservedBitsSet ∧ decode 0x80000001#32 = .error .reservedBitsSet ∧
    decode 0x00000000#32 = .error .unknownOpcode ∧ decode 0x0000000F#32 = .error .unknownOpcode ∧
    decodeBytes [1#8, 0#8] = .error .notOneWord := by decide

theorem test_decode_bytes_low_byte_first :
    decodeBytes [0x03#8, 0x00#8, 0x00#8, 0x00#8] = .ok .x25519 ∧
    decodeBytes [0x00#8, 0x00#8, 0x00#8, 0x03#8] = .error .reservedBitsSet := by decide

theorem test_decode_table_words :
    [1, 2, 3, 4, 5, 6, 7].map (decodeTableWord 32) =
      [some .montMul, some .fieldRed, some .x25519, some .x25519Base, some .md5Init, some .md5Block,
        some .zeroize] := by decide

/-! ### Reading results -/

/-- A property of the next state, false if there is none. -/
def onNext (o : Host.Outcome State Fault Refusal) (p : State → Bool) : Bool :=
  match o with
  | .next t => p t
  | .fault _ => false
  | .refused _ => false

/-- The reset state with numbers in A and B. -/
def withOperands (a b : Nat) : State :=
  { State.reset with fileA := words8 a, fileB := words8 b }

/-- A state with a command in flight and `left` cycles to go. -/
def inFlight (i : Instr) (left : Nat) : State :=
  { accept i State.reset with cyclesLeft := left }

/-- Alice's scalar of V-X-3, as the words of A. -/
def alice : Vector Word 8 :=
  #v[0x0a6d0777#32, 0x7da51873#32, 0x72c1163c#32, 0x4566b251#32, 0x872f4cdf#32, 0x2a99c0eb#32, 0xa5fb77b1#32,
    0x2a2cb91d#32]

/-- The padded message "abc" of V-MD5-3. -/
def abcBlock : Vector Word 16 :=
  #v[0x80636261#32, 0, 0, 0, 0, 0, 0, 0, 0, 0, 0, 0, 0, 0, 0x00000018#32, 0]

/-! ### Each row of the opcode table runs as the first command after reset -/

theorem test_first_step_runs_every_row :
    [1, 2, 3, 4, 5, 6, 7].all (fun w =>
      onNext (step (State.reset.withFetchWord 32 w)) fun t => t.done && !t.busy && t.err == 0#4) = true := by decide +kernel

/-! ### MONT_MUL and FIELD_RED -/

/-- V-MUL-4: 2^255 times 2 is 38. -/
theorem test_montMul_wraps_at_prime :
    onNext (exec .montMul (withOperands (2 ^ 255) 2)) (fun t => val t.fileR == 38 && val t.fileA == 2 ^ 255) = true := by
  decide +kernel

/-- V-MUL-7: the largest inputs. -/
theorem test_montMul_largest :
    onNext (exec .montMul (withOperands (2 ^ 256 - 1) (2 ^ 256 - 1))) (fun t => val t.fileR == 0x559) = true := by
  decide +kernel

/-- V-RED-8: x = 2^511. -/
theorem test_fieldRed_high_half :
    onNext (exec .fieldRed (withOperands 0 (2 ^ 255))) (fun t => val t.fileR == 0x2d2) = true := by decide +kernel

/-- V-RED-11: (P - 1)^2. -/
theorem test_fieldRed_square :
    onNext (exec .fieldRed { State.reset with
      fileA := #v[0x190#32, 0, 0, 0, 0, 0, 0, 0]
      fileB := #v[0xffffffec#32, 0xffffffff#32, 0xffffffff#32, 0xffffffff#32, 0xffffffff#32, 0xffffffff#32,
        0xffffffff#32, 0x3fffffff#32] }) (fun t => val t.fileR == 1) = true := by decide +kernel

/-! ### X25519 and X25519_BASE -/

/-- V-X-2, the second vector of RFC 7748 §5.2: bit 255 of B is set and ignored. -/
theorem test_x25519_ignores_bit_255 :
    onNext (exec .x25519 { State.reset with
      fileA := #v[0xd4e9664b#32, 0x3c67b4d1#32, 0x9126d25a#32, 0xf56a7d95#32, 0x21641bc1#32, 0xd401eae0#32,
        0x9e16a42c#32, 0x0dba1879#32]
      fileB := #v[0x120f21e5#32, 0xd3116878#32, 0x9d95b7f4#32, 0x2cae3805#32, 0x10e7db31#32, 0x3e3cc06f#32,
        0x49d54cfc#32, 0x93a415c7#32] })
      (fun t => t.err == 0#4 && t.fileR == #v[0x94decb95#32, 0x7d90e876#32, 0x5ce4ad7a#32, 0xf873b8b4#32, 0x685a598b#32,
        0x52a19f79#32, 0x64f7f8e6#32, 0x5779ac7a#32]) = true := by decide +kernel

/-- V-X-12: a low-order point with LOWCHK latched. -/
theorem test_x25519_low_order_check :
    onNext (exec .x25519 { State.reset with fileA := alice, fileB := words8 1, pendLowchk := true })
      (fun t => t.err == 2#4 && val t.fileR == 0 && t.done) = true := by decide +kernel

/-- V-X-3: Alice's public key (RFC 7748 §6.1). -/
theorem test_x25519Base_alice :
    onNext (exec .x25519Base { State.reset with fileA := alice })
      (fun t => t.fileR == #v[0x09f02085#32, 0x54a73089#32, 0xdc7d8b74#32, 0x5af73eb4#32, 0x0d3abf0d#32, 0xf41a3826#32,
        0x8ea9a4eb#32, 0x6a4e9baa#32] && t.fileA == alice) = true := by decide +kernel

/-- V-X-15: 9 and 2^255 + 2^254 + 15 clamp to the same scalar. -/
theorem test_x25519Base_clamps : clamp 9 = clamp (2 ^ 255 + 2 ^ 254 + 15) ∧ clamp 9 = 2 ^ 254 + 8 := by decide +kernel

/-! ### MD5 -/

/-- V-MD5-2. -/
theorem test_md5Init_iv :
    onNext (exec .md5Init State.reset)
      (fun t => t.dig == #v[0x67452301#32, 0xefcdab89#32, 0x98badcfe#32, 0x10325476#32]) = true := by decide +kernel

/-- V-MD5-3, the source's own vector S-2: DIG = IV and the block of "abc". -/
theorem test_md5Block_abc :
    onNext (exec .md5Block { State.reset with dig := digOfChain md5Iv, blk := abcBlock })
      (fun t => t.dig == #v[0x98500190#32, 0xb04fd23c#32, 0x7d3f96d6#32, 0x727fe128#32] && t.blk == abcBlock) = true := by
  decide +kernel

/-- V-MD5-10: from reset, without MD5_INIT. -/
theorem test_md5Block_from_reset :
    onNext (exec .md5Block State.reset)
      (fun t => t.dig == #v[0xf7cd1c97#32, 0xa5483681#32, 0x2b68d832#32, 0xf90ca639#32]) = true := by decide +kernel

/-- V-MD5-5: the shortest two-block message, 56 letters a, padded and compressed as the host does it. -/
theorem test_md5_two_blocks :
    md5 (List.replicate 56 0x61#8) = [0x3b#8, 0x0c#8, 0x8a#8, 0xc7#8, 0x03#8, 0xf8#8, 0x28#8, 0xb0#8] ++
      [0x4c#8, 0x6c#8, 0x19#8, 0x70#8, 0x06#8, 0xd1#8, 0x72#8, 0x18#8] := by decide +kernel

/-! ### ZEROIZE, V-Z-1 -/

theorem test_zeroize_clears_files :
    onNext (exec .zeroize { State.reset with fileA := alice, blk := abcBlock, dig := digOfChain md5Iv })
      (fun t => val t.fileA == 0 && t.blk == Vector.replicate 16 0#32 && t.dig == Vector.replicate 4 0#32) = true := by
  decide +kernel

theorem test_zeroize_keeps_ctrl_and_ovr :
    onNext (exec .zeroize { State.reset with irqen := true, lowchk := true, ovr := true })
      (fun t => ctrlWord t == 3#32 && statusWord t == 0x00000006#32) = true := by decide

/-! ### Transfers, V-S-1 to V-S-16 -/

/-- The read data of the last cycle. -/
def readBack (s : State) : Option Word :=
  s.resp.bind (·.rdata)

/-- V-S-1 and V-S-2. -/
theorem test_id_and_ctrl :
    readBack (busTransfer (readTransfer 0x000#12) State.reset) = some 0x57430001#32 ∧
    readBack (busTransfer (readTransfer 0x004#12) (busTransfer (writeTransfer 0x004#12 0xffffffff#32) State.reset)) =
      some 0x00000003#32 := by decide

/-- V-S-3 and V-S-4: an illegal word. -/
theorem test_illegal_word_is_reported :
    readBack (busTransfer (readTransfer 0x008#12) (busTransfer (writeTransfer 0x00C#12 0x00000000#32) State.reset)) =
      some 0x00000012#32 ∧
    statusWord (busTransfer (writeTransfer 0x00C#12 0x00000011#32) State.reset) = 0x00000012#32 := by decide

/-- V-S-5, V-S-6 and V-S-7: accept, a CMD write while busy, data registers while busy. -/
theorem test_accept_then_overrun_and_lock :
    statusWord (busTransfer (writeTransfer 0x00C#12 0x00000001#32) State.reset) = 0x00000001#32 ∧
    statusWord (busTransfer (writeTransfer 0x00C#12 0x00000002#32) (inFlight .montMul 5)) = 0x00000005#32 ∧
    readBack (busTransfer (readTransfer 0x080#12) (inFlight .montMul 5)) = some 0#32 ∧
    statusWord (busTransfer (writeTransfer 0x040#12 0x12345678#32) (inFlight .montMul 5)) = 0x00000009#32 := by decide

/-- V-S-8: W1C per bit; ERR is not cleared. -/
theorem test_status_w1c :
    statusWord (writeStatus 0x00000002#32 { State.reset with done := true, ovr := true, accerr := true, err := 2#4 }) =
      0x0000002c#32 ∧
    statusWord (writeStatus 0x0000000c#32 { State.reset with ovr := true, accerr := true, err := 2#4 }) =
      0x00000020#32 := by decide

/-- V-S-9: a bus error. -/
theorem test_bus_error :
    (busTransfer { we := false, addr := 0x042#12, size := 2#2, wdata := 0#32 } State.reset).resp =
      some { rdata := some 0#32, err := true } := by decide

/-- V-S-10 and V-S-11: reserved offsets and the read-only R. -/
theorem test_reserved_and_read_only :
    readBack (busTransfer (readTransfer 0x200#12) State.reset) = some 0#32 ∧
    (busTransfer (writeTransfer 0x080#12 0xffffffff#32) State.reset).fileR = State.reset.fileR := by decide

/-- V-S-12: irq at the completion, and its fall at the W1C of DONE. -/
theorem test_irq_rises_at_completion :
    irq (inFlight .zeroize 1) = false ∧
    onNext (step { inFlight .zeroize 1 with irqen := true })
      (fun t => irq t && !irq (writeStatus 0x00000002#32 t)) = true := by decide

/-- V-S-15: a STATUS read in the completion's own cycle returns BUSY = 1. -/
theorem test_status_read_in_completion_cycle :
    onNext (runTransfer (readPins 0x008#12) (inFlight .md5Init 1)) (fun t => readBack t == some 1#32 && t.done) = true := by
  decide

/-- V-S-16: reset aborts the command in flight. -/
theorem test_reset_aborts :
    onNext (step { inFlight .md5Init 1 with inputs := [{ rstN := false, bus := none }] })
      (fun t => statusWord t == 0#32 && t.dig == Vector.replicate 4 0#32 && t.pendOp == none) = true := by decide

/-- R53's boundaries. -/
theorem test_address_map_boundaries :
    [0x000#12, 0x004#12, 0x008#12, 0x00C#12, 0x010#12, 0x03C#12, 0x040#12, 0x05C#12, 0x060#12, 0x07C#12].map regAt =
      [.id, .ctrl, .status, .cmd, .reserved, .reserved, .a 0, .a 7, .b 0, .b 7] ∧
    [0x080#12, 0x09C#12, 0x0A0#12, 0x0AC#12, 0x0B0#12, 0x0FC#12, 0x100#12, 0x13C#12, 0x140#12, 0xFFC#12].map regAt =
      [.r 0, .r 7, .dig 0, .dig 3, .reserved, .reserved, .blk 0, .blk 15, .reserved, .reserved] := by decide

/-! ### Witnesses: the hypotheses of the statements can be met -/

theorem witness_WordIsLegal : ∃ i, decode 0x7#32 = .ok i := ⟨.zeroize, by decide⟩

theorem witness_ResetEdge :
    ∃ (s : State) (t : Transfer) (ps : List Pins), s.busy = true ∧ s.cyclesLeft ≤ 1 ∧
      s.inputs = { rstN := false, bus := some t } :: ps ∧ some t ≠ none :=
  ⟨{ inFlight .md5Init 1 with inputs := [{ rstN := false, bus := some (readTransfer 0#12) }] }, readTransfer 0#12, [],
    rfl, by decide, rfl, by decide⟩

theorem witness_ResetEdge_no_transfer :
    ∃ (s : State) (ps : List Pins), s.inputs = { rstN := false, bus := none } :: ps :=
  ⟨{ State.reset with inputs := [{ rstN := false, bus := none }] }, [], rfl⟩

theorem witness_Step_idle :
    ∃ (s : State) (bus : Option Transfer) (ps : List Pins), s.inputs = { rstN := true, bus := bus } :: ps ∧ s.busy = false :=
  ⟨{ State.reset with inputs := [writePins 0x00C#12 1#32] }, some (writeTransfer 0x00C#12 1#32), [], rfl, rfl⟩

theorem witness_Step_due :
    ∃ (s : State) (bus : Option Transfer) (ps : List Pins) (i : Instr), s.inputs = { rstN := true, bus := bus } :: ps ∧
      s.busy = true ∧ s.pendOp = some i ∧ s.cyclesLeft ≤ 1 :=
  ⟨{ inFlight .x25519 1 with inputs := [readPins 0x008#12] }, some (readTransfer 0x008#12), [], .x25519, rfl, rfl, rfl,
    by decide⟩

theorem witness_Step_not_due :
    ∃ (s : State) (bus : Option Transfer) (ps : List Pins), s.inputs = { rstN := true, bus := bus } :: ps ∧
      s.busy = true ∧ 1 < s.cyclesLeft :=
  ⟨{ inFlight .x25519 2 with inputs := [idlePins] }, none, [], rfl, rfl, by decide⟩

theorem witness_StepRunsTheDecodedCommand : ∃ (w : Word) (i : Instr), decode w = .ok i :=
  ⟨0x6#32, .md5Block, by decide⟩

theorem witness_CommandWrite_busy : ∃ s : State, s.busy = true := ⟨inFlight .montMul 3, rfl⟩

theorem witness_CommandWrite_illegal :
    ∃ (s : State), s.busy = false ∧ ∀ w ∈ [0x00#32, 0x08#32, 0x10#32, 0x0F#32],
      w.toNat / 16 ≠ 0 ∨ w.toNat % 16 = 0 ∨ 8 ≤ w.toNat % 16 :=
  ⟨State.reset, rfl, by simp⟩

theorem witness_CommandWrite_legal :
    ∃ (s : State), s.busy = false ∧ ∀ w ∈ [0x1#32, 0x7#32],
      w.toNat / 16 = 0 ∧ 1 ≤ w.toNat % 16 ∧ w.toNat % 16 < 8 :=
  ⟨State.reset, rfl, by simp⟩

theorem witness_CommandWrite_illegal_transfer :
    ∃ t : Transfer, 0x00C ≤ t.addr.toNat ∧ t.addr.toNat < 0x010 ∧ (t.size ≠ 2#2 ∨ t.addr.toNat % 4 ≠ 0) :=
  ⟨{ we := true, addr := 0x00F#12, size := 2#2, wdata := 1#32 }, by decide⟩

theorem witness_exec_next : ∀ i : Instr, ∃ s t : State, exec i s = .next t := by
  have h : ∀ (i : Instr) (s : State), ∃ t, exec i s = .next t := by
    intro i s; cases i <;> exact ⟨_, rfl⟩
  exact fun i => ⟨State.reset, h i State.reset⟩

theorem witness_CommandsReadAndWriteOnlyTheirFiles :
    ∃ s s' : State, s ≠ s' ∧ s.fileA = s'.fileA ∧ s.fileB = s'.fileB ∧ s.pendLowchk = s'.pendLowchk ∧
      s.dig = s'.dig ∧ s.blk = s'.blk :=
  ⟨State.reset, { State.reset with ovr := true }, by decide, rfl, rfl, rfl, rfl, rfl⟩

theorem witness_MontMulResidues :
    ∃ s s' : State, s.fileA ≠ s'.fileA ∧
      val s.fileA ≡ val s'.fileA [MOD Config.prime] ∧ val s.fileB ≡ val s'.fileB [MOD Config.prime] :=
  ⟨withOperands 1 5, withOperands (Config.prime + 1) 5, by decide +kernel, by unfold Nat.ModEq; decide +kernel,
    by unfold Nat.ModEq; decide +kernel⟩

theorem witness_MontMulSwapped :
    ∃ s s' : State, val s.fileA ≡ val s'.fileB [MOD Config.prime] ∧ val s.fileB ≡ val s'.fileA [MOD Config.prime] :=
  ⟨withOperands 1 5, withOperands 5 1, rfl, rfl⟩

theorem witness_FieldRedOfAProduct :
    ∃ s s' : State, s'.fileA = words8 (val s.fileA * val s.fileB % 2 ^ 256) ∧
      s'.fileB = words8 (val s.fileA * val s.fileB / 2 ^ 256) :=
  ⟨withOperands (2 ^ 255) 6, withOperands (2 ^ 255 * 6 % 2 ^ 256) (2 ^ 255 * 6 / 2 ^ 256), by decide +kernel,
    by decide +kernel⟩

theorem witness_LowOrderCheck :
    (∃ s : State, s.pendLowchk = true ∧ ladder (clamp (val s.fileA)) (val s.fileB % 2 ^ 255 % Config.prime) = 0) ∧
    (∃ s : State, s.pendLowchk = false) :=
  ⟨⟨{ State.reset with pendLowchk := true }, rfl, by decide +kernel⟩, ⟨State.reset, rfl⟩⟩

theorem witness_PointDecoding :
    (∃ v, v < 2 ^ 255) ∧ (∃ v, v + Config.prime < 2 ^ 255) ∧ (∃ v, v < Config.prime) ∧
    (∃ s s' : State, s'.fileA = s.fileA ∧ s'.pendLowchk = s.pendLowchk ∧
      (∀ j : Fin 8, j.val ≠ 7 → s'.fileB[j] = s.fileB[j]) ∧ s'.fileB[7] = s.fileB[7] ^^^ 0x80000000#32) :=
  ⟨⟨0, by decide⟩, ⟨18, by decide⟩, ⟨Config.prime - 1, by decide⟩,
    ⟨State.reset, { State.reset with fileB := #v[0, 0, 0, 0, 0, 0, 0, 0x80000000#32] }, rfl, rfl, by decide, by decide⟩⟩

theorem witness_LowOrderPoints :
    decodeU (val State.reset.fileB) = 0 ∧ decodeU (val (words8 1)) = 1 ∧
    decodeU (val (words8 (Config.prime - 1))) = Config.prime - 1 := by decide +kernel

theorem witness_Bus_busy_and_idle :
    (∃ s : State, s.busy = true) ∧ (∃ s : State, s.busy = false) ∧
    (∃ t : Transfer, t.we = false ∧ t.size = 2#2 ∧ t.addr.toNat = 0x040 + 4 * (7 : Fin 8).val) ∧
    (∃ t : Transfer, t.we = true ∧ t.size = 2#2 ∧ t.addr.toNat = 0x100 + 4 * (15 : Fin 16).val) ∧
    (∃ t : Transfer, t.size = 2#2 ∧ t.addr.toNat % 4 = 0 ∧ 0x0B0 ≤ t.addr.toNat ∧ t.addr.toNat ≤ 0x0FC) ∧
    (∃ t : Transfer, t.size ≠ 2#2 ∨ t.addr.toNat % 4 ≠ 0) :=
  ⟨⟨inFlight .zeroize 2, rfl⟩, ⟨State.reset, rfl⟩, ⟨readTransfer 0x05C#12, by decide⟩,
    ⟨writeTransfer 0x13C#12 5#32, by decide⟩, ⟨readTransfer 0x0FC#12, by decide⟩,
    ⟨{ we := true, addr := 0#12, size := 3#2, wdata := 0#32 }, by decide⟩⟩

theorem witness_ReadAfterWrite :
    State.reset.busy = false ∧
    [(0x040#12, 0x100#12), (0x07C#12, 0x008#12), (0x0AC#12, 0x000#12), (0x13C#12, 0x00C#12), (0x100#12, 0x140#12),
      (0x004#12, 0x004#12), (0x004#12, 0x05C#12), (0x008#12, 0x004#12), (0x000#12, 0x000#12), (0x080#12, 0x080#12),
      (0x09C#12, 0x09C#12), (0x010#12, 0x010#12), (0x0FC#12, 0x0FC#12), (0xFFC#12, 0xFFC#12)].all
      (fun (off, off') => off.toNat % 4 == 0 && off'.toNat % 4 == 0 && off != (0x00C#12 : BitVec 12)) = true := by
  decide +kernel

/-- R65 (a): CTRL keeps its two bits, R ignores the write, and a write of A[7] leaves STATUS's reading alone. -/
theorem test_read_after_write :
    readBack (busTransfer (readTransfer 0x004#12) (busTransfer (writeTransfer 0x004#12 6#32) State.reset)) = some 2#32 ∧
    readBack (busTransfer (readTransfer 0x09C#12) (busTransfer (writeTransfer 0x09C#12 6#32) State.reset)) = some 0#32 ∧
    readBack (busTransfer (readTransfer 0x008#12) (busTransfer (writeTransfer 0x05C#12 6#32) State.reset)) =
      some 0#32 := by decide +kernel

theorem witness_IrqRises :
    ∃ s t : State, irq s = false ∧ step s = .next t ∧ irq t = true :=
  ⟨{ State.reset with irqen := true, inputs := [writePins 0x00C#12 0#32] }, _, rfl, rfl, by decide⟩

theorem witness_IrqFalls :
    (2#32 : Word).getLsbD 1 = true ∧ (2#32 : Word).getLsbD 0 = false ∧ State.reset.busy = false := by decide

theorem witness_TransferInTheCompletionCycle :
    ∃ (s : State) (i : Instr) (tr : Transfer) (ps : List Pins),
      s.busy = true ∧ s.cyclesLeft ≤ 1 ∧ s.pendOp = some i ∧ s.inputs = { rstN := true, bus := some tr } :: ps ∧
      tr.size = 2#2 ∧ tr.addr.toNat % 4 = 0 ∧ tr.we = true ∧ tr.addr = 0x00C#12 :=
  ⟨{ inFlight .zeroize 1 with inputs := [writePins 0x00C#12 1#32] }, .zeroize, writeTransfer 0x00C#12 1#32, [], rfl,
    by decide, rfl, rfl, rfl, by decide, rfl, rfl⟩

theorem witness_TransferInTheCompletionCycle_status :
    ∃ (s : State) (i : Instr) (tr : Transfer) (ps : List Pins),
      s.busy = true ∧ s.cyclesLeft ≤ 1 ∧ s.pendOp = some i ∧ s.inputs = { rstN := true, bus := some tr } :: ps ∧
      tr.size = 2#2 ∧ tr.addr.toNat % 4 = 0 ∧ tr.we = false ∧ tr.addr = 0x008#12 :=
  ⟨{ inFlight .zeroize 1 with inputs := [readPins 0x008#12] }, .zeroize, readTransfer 0x008#12, [], rfl,
    by decide, rfl, rfl, rfl, by decide, rfl, rfl⟩

theorem witness_TransferInTheCompletionCycle_locked :
    ∀ off ∈ [0x040#12, 0x0AC#12, 0x100#12, 0x13C#12], ∃ (s : State) (i : Instr) (tr : Transfer) (ps : List Pins),
      s.busy = true ∧ s.cyclesLeft ≤ 1 ∧ s.pendOp = some i ∧ s.inputs = { rstN := true, bus := some tr } :: ps ∧
      tr.size = 2#2 ∧ tr.addr = off ∧ off.toNat % 4 = 0 ∧
      ((0x040 ≤ off.toNat ∧ off.toNat < 0x0B0) ∨ (0x100 ≤ off.toNat ∧ off.toNat < 0x140)) := by
  intro off h
  refine ⟨{ inFlight .zeroize 1 with inputs := [readPins off] }, .zeroize, readTransfer off, [], rfl, le_refl _, rfl, rfl,
    rfl, rfl, ?_⟩
  revert off
  decide +kernel

theorem witness_BusyFalls :
    ∃ s t : State, s.busy = true ∧ step s = .next t ∧ t.busy = false :=
  ⟨inFlight .zeroize 1, _, rfl, rfl, rfl⟩

theorem witness_Invariants_busy :
    ∃ s t : State, s.busy = true ∧ SequencerOk s ∧ CounterOk s ∧ WorkClear s ∧ ResultCanonical s ∧ step s = .next t :=
  ⟨inFlight .zeroize 1, _, rfl, by decide, ⟨le_refl _, by simp [Config.latency, inFlight]⟩, (by intro h; cases h),
    by decide +kernel, rfl⟩

theorem witness_CommandCompletes :
    ∃ (s : State) (i : Instr) (w : Word) (ps : List Pins), s.busy = false ∧ decode w = .ok i ∧
      s.inputs = writePins 0x00C#12 w :: ps ∧ ps ≠ [] ∧ ∀ p ∈ ps.take (Config.latency i), p.rstN = true :=
  ⟨{ State.reset with inputs := [writePins 0x00C#12 1#32, readPins 0x008#12] }, .montMul, 1#32, [readPins 0x008#12],
    rfl, by decide, rfl, by decide, by
      intro p hp
      have h := List.mem_of_mem_take hp
      rw [List.mem_singleton] at h
      rw [h]; rfl⟩

theorem witness_WaitEnds :
    ∃ s : State, SequencerOk s ∧ (s.busy = true ∨ s.done = true) :=
  ⟨inFlight .montMul 4, by decide, Or.inl rfl⟩

theorem witness_WaitEndsOnlyOnDone :
    (∃ v t, runWait 2 (inFlight .zeroize 1) = .done [v] t) ∧ ∃ t, runWait 1 (inFlight .zeroize 1) = .waiting [] t := by
  have h : ((match runWait 2 (inFlight .zeroize 1) with | .done [_] _ => true | _ => false) &&
    (match runWait 1 (inFlight .zeroize 1) with | .waiting [] _ => true | _ => false)) = true := by decide
  rw [Bool.and_eq_true] at h
  constructor
  · have h1 := h.1
    split at h1
    · rename_i h2; exact ⟨_, _, h2⟩
    · cases h1
  · have h1 := h.2
    split at h1
    · rename_i h2; exact ⟨_, h2⟩
    · cases h1

theorem witness_ScalarMultiplicationRunsTheWholeLadder :
    ∃ (s : State) (i : Instr) (u : Nat),
      (i = .x25519 ∧ u = val s.fileB % 2 ^ 255 % Config.prime) ∨ (i = .x25519Base ∧ u = 9) :=
  ⟨withOperands 5 9, .x25519, _, Or.inl ⟨rfl, rfl⟩⟩

theorem witness_HostOperations :
    State.reset.busy = false ∧ (bytes32 (2 ^ 256 - 1)).length = 32 ∧ (List.replicate 64 0x61#8).length = 64 ∧
    (2 ^ 256 - 1 : Nat) < 2 ^ 256 := by decide +kernel

theorem witness_HostSequenceOfMd5 :
    ∃ polls, Config.latency .md5Init < polls ∧ Config.latency .md5Block < polls :=
  ⟨Config.latency .md5Init + Config.latency .md5Block + 1, by omega, by omega⟩

/-- The value of `RD256 A` after `WRINT A, 2^255`, and the bytes of RDDIG (P2's RDDIG, spec/95_test_vectors.md). -/
theorem test_rd256_and_rddig :
    (match runHost 0 (hostWrInt .a (2 ^ 255)) State.reset with
      | .done _ t => (runHost 0 (hostRd256 .a) t).valueRead
      | _ => none) = some (2 ^ 255) ∧
    (runHost 0 hostRdDig { State.reset with
      dig := #v[0x98500190#32, 0xb04fd23c#32, 0x7d3f96d6#32, 0x727fe128#32] }).bytesRead =
      some [0x90#8, 0x01#8, 0x50#8, 0x98#8, 0x3c#8, 0xd2#8, 0x4f#8, 0xb0#8,
        0xd6#8, 0x96#8, 0x3f#8, 0x7d#8, 0x28#8, 0xe1#8, 0x7f#8, 0x72#8] := by decide +kernel

theorem witness_Md5BlockRanges :
    ∀ i ∈ [0, 15, 16, 31, 32, 47, 48, 63], i < 64 ∧
      ((i ≤ 15 ∧ ¬ 16 ≤ i) ∨ (16 ≤ i ∧ i ≤ 31) ∨ (32 ≤ i ∧ i ≤ 47) ∨ 48 ≤ i) := by decide

theorem witness_ListedLowOrder :
    (1 : Nat) + 2 ^ 255 = 1 + 2 ^ 255 ∧ 1 + Config.prime < 2 ^ 255 ∧ ¬ (Config.prime - 1 + Config.prime < 2 ^ 255) ∧
    (2 ^ 256 - 1 : Nat) < 2 ^ 256 := by decide

theorem witness_Clamp : (2 ^ 256 - 1 : Nat) < 2 ^ 256 ∧ (clamp (2 ^ 256 - 1)).testBit 255 = false ∧
    (clamp 0).testBit 254 = true ∧ (clamp (2 ^ 256 - 1)).testBit 2 = false ∧ (clamp 8).testBit 3 = true := by decide +kernel

theorem witness_AddressMap :
    Reg.offset .ctrl = some 0x004#12 ∧ regAt 0x010#12 = .reserved ∧ regAt 0x03C#12 = .reserved ∧
    regAt 0x0B0#12 = .reserved ∧ regAt 0x0FC#12 = .reserved ∧ regAt 0x140#12 = .reserved ∧ regAt 0xFFC#12 = .reserved ∧
    regAt 0x00C#12 ≠ .reserved ∧ regAt 0x13C#12 ≠ .reserved := by decide +kernel

theorem witness_LegalRead_offsets :
    ∀ off ∈ [0x000#12, 0x004#12, 0x008#12, 0x00C#12, 0x010#12, 0x03C#12, 0x040#12, 0x05C#12, 0x060#12, 0x07C#12, 0x080#12,
      0x09C#12, 0x0A0#12, 0x0AC#12, 0x0B0#12, 0x0FC#12, 0x100#12, 0x13C#12, 0x140#12, 0xFFC#12],
      (readTransfer off).we = false ∧ (readTransfer off).size = 2#2 ∧ (readTransfer off).addr.toNat % 4 = 0 := by
  simp [readTransfer]

theorem witness_LegalWrite_offsets :
    ∀ off ∈ [0x000#12, 0x004#12, 0x008#12, 0x00C#12, 0x010#12, 0x03C#12, 0x040#12, 0x05C#12, 0x060#12, 0x07C#12, 0x080#12,
      0x09C#12, 0x0A0#12, 0x0AC#12, 0x0B0#12, 0x0FC#12, 0x100#12, 0x13C#12, 0x140#12, 0xFFC#12],
      (writeTransfer off 5#32).we = true ∧ (writeTransfer off 5#32).size = 2#2 ∧
      (writeTransfer off 5#32).addr.toNat % 4 = 0 := by
  simp [writeTransfer]

theorem witness_ReservedBits :
    ∃ w w' : Word, w ≠ w' ∧ w.toNat % 4 = w'.toNat % 4 ∧ w.toNat / 2 % 8 = w'.toNat / 2 % 8 :=
  ⟨3#32, 0xFFFFFFF3#32, by decide⟩

theorem witness_RepeatedTransfers :
    (0x040#12 : BitVec 12).toNat ≥ 0x040 ∧ (0x0AC#12 : BitVec 12).toNat < 0x0B0 ∧ 0x100 ≤ (0x100#12 : BitVec 12).toNat ∧
    0x100 ≤ (0xFFC#12 : BitVec 12).toNat := by decide

theorem witness_Window :
    windowOffset Config.windowBase = some 0x000#12 ∧ windowOffset (Config.windowBase + 4095) = some 0xFFF#12 ∧
    windowOffset (Config.windowBase + 4096) = none := by
  simp [windowOffset]

theorem witness_FilesLittleEndian :
    (2 ^ 256 - 1 : Nat) < 2 ^ 256 ∧ (List.replicate 32 0xA5#8).length = 32 := by decide

theorem witness_SwappedFieldBase :
    ∃ s t : State, exec .x25519 { s with fileB := words8 9 } = .next t := by
  have h : ∀ s : State, ∃ t, exec .x25519 s = .next t := fun s => ⟨_, rfl⟩
  obtain ⟨t, ht⟩ := h { State.reset with fileB := words8 9 }
  exact ⟨State.reset, t, ht⟩

theorem witness_SameTiming : ∃ s s' : State, s.fileA ≠ s'.fileA ∧ s.lowchk ≠ s'.lowchk ∧ SameTiming s s' :=
  ⟨State.reset, { State.reset with fileA := alice, lowchk := true }, by decide, by decide, rfl, rfl, rfl, rfl, rfl⟩

theorem witness_SameButWork : ∃ s s' : State, s.work ≠ s'.work ∧ SameButWork s s' :=
  ⟨State.reset, { State.reset with work := { Working.zero with swap := true } }, by decide, rfl⟩

end Tests
end Sys2Proof
end

section
/-! PROOFS. The field operations as residues of the exact integer operations, and the inverse as a power
(spec/00_scope.md R9). -/

namespace Sys2Proof
namespace Machine

theorem fmul_mod_mod (x y : Nat) : fmul (x % Config.prime) (y % Config.prime) = fmul x y :=
  (Nat.mul_mod x y _).symm

theorem fmul_mod_right (x y : Nat) : fmul x (y % Config.prime) = fmul x y :=
  Nat.mul_mod_mod x y _

/-- Repeated squaring computes the power, for every exponent that fits in `bits` bits. -/
theorem fpow_eq_pow_mod (z : Nat) {e bits : Nat} (h : e < 2 ^ bits) : fpow z e bits = z ^ e % Config.prime := by
  induction bits generalizing e with
  | zero =>
    obtain rfl : e = 0 := by simpa using h
    rfl
  | succ bits ih =>
    have half : fpow z (e / 2) bits = z ^ (e / 2) % Config.prime := ih (by omega)
    have square : fmul (fpow z (e / 2) bits) (fpow z (e / 2) bits) = z ^ (2 * (e / 2)) % Config.prime := by
      rw [half, fmul_mod_mod, fmul, ← pow_add, two_mul]
    simp only [fpow, square]
    split
    next odd =>
      rw [fmul_mod_right, fmul, ← pow_succ', show 2 * (e / 2) + 1 = e by omega]
    next even =>
      rw [show 2 * (e / 2) = e by omega]

/-- A power of 0 with a positive exponent is 0. Stated for every exponent: with P - 2 in its place, the kernel would
evaluate the power by its recursion. -/
theorem fpow_zero_left {e bits : Nat} (pos : 0 < e) (h : e < 2 ^ bits) : fpow 0 e bits = 0 := by
  rw [fpow_eq_pow_mod 0 h, Nat.zero_pow pos, Nat.zero_mod]

theorem prime_sub_two_lt : Config.prime - 2 < 2 ^ 255 := Nat.lt_of_le_of_lt (Nat.sub_le _ _) prime_lt

theorem finv_eq_pow_mod (z : Nat) : finv z = z ^ (Config.prime - 2) % Config.prime :=
  fpow_eq_pow_mod z prime_sub_two_lt

theorem finv_zero : finv 0 = 0 :=
  fpow_zero_left (by decide) prime_sub_two_lt

theorem intCast_fadd (x y : Nat) : (fadd x y : Int) = (x + y : Int) % (Config.prime : Int) := by
  rw [fadd, Int.natCast_emod, Nat.cast_add]

/-- Adding `P - y mod P` is subtracting `y`, up to a multiple of P. -/
theorem intCast_fsub (x y : Nat) : (fsub x y : Int) = (x - y : Int) % (Config.prime : Int) := by
  have complement : ((Config.prime - y % Config.prime : Nat) : Int) = Config.prime - y % Config.prime := by
    rw [Nat.cast_sub (Nat.mod_lt y prime_pos).le, Int.natCast_emod]
  calc (fsub x y : Int)
      = (x - y % Config.prime + Config.prime : Int) % (Config.prime : Int) := by
        rw [fsub, Int.natCast_emod, Nat.cast_add, complement, add_sub_left_comm, add_comm]
    _ = (x - y : Int) % (Config.prime : Int) := by
        rw [Int.add_emod_right, Int.sub_emod_emod]

theorem intCast_fmul (x y : Nat) : (fmul x y : Int) = (x * y : Int) % (Config.prime : Int) := by
  rw [fmul, Int.natCast_emod, Nat.cast_mul]

/-- Settles O16: the inverse by repeated squaring with the exponent P - 2 of 255 bits, the other operations by casting
their definitions to the integers. -/
theorem fieldOperationsAreExactResidues : Obligations.FieldOperationsAreExactResidues :=
  ⟨finv_eq_pow_mod, finv_zero, intCast_fadd, intCast_fsub, intCast_fmul⟩

end Machine
end Sys2Proof
end

section
/-! PROOFS. The block at reset, and the write-one-to-clear of STATUS (spec/10_state.md R27, R39). -/

namespace Sys2Proof
namespace Machine

/-! ### Reset -/

theorem sequencerOk_reset : SequencerOk State.reset := by decide

theorem counterOk_reset : CounterOk State.reset := rfl

theorem workClear_reset : WorkClear State.reset := fun _ => rfl

/-- The result file of the reset state is the number 0. -/
theorem resultCanonical_reset : ResultCanonical State.reset := by decide

/-- Settles O4: a word of a file at reset is a word of a constant vector, and every other element is its literal. -/
theorem resetLeavesEveryElementZero : Obligations.ResetLeavesEveryElementZero := by
  have files (j : Fin 8) :
      State.reset.fileA[j] = 0#32 ∧ State.reset.fileB[j] = 0#32 ∧ State.reset.fileR[j] = 0#32 := by
    simp [State.reset]
  have dig (j : Fin 4) : State.reset.dig[j] = 0#32 := by simp [State.reset]
  have blk (j : Fin 16) : State.reset.blk[j] = 0#32 := by simp [State.reset]
  exact ⟨rfl, rfl, rfl, rfl, rfl, rfl, rfl, files, dig, blk, rfl, rfl, rfl, rfl⟩

/-- Settles O45: each invariant at reset. -/
theorem invariantsHoldAtReset : Obligations.InvariantsHoldAtReset :=
  ⟨sequencerOk_reset, counterOk_reset, workClear_reset, resultCanonical_reset⟩

/-! ### STATUS writes -/

/-- A write of a whole word at an aligned offset is legal (R56). -/
theorem busTransfer_writeTransfer {off : BitVec 12} {reg : Reg} (aligned : off.toNat % 4 = 0) (hr : regAt off = reg)
    (w : Word) (s : State) :
    busTransfer (writeTransfer off w) s = respond (some writeAnswer)
      (if locked s reg then flagAccessError s else writeReg reg w s) :=
  busTransfer_write ((Transfer.legal_iff _).mpr ⟨rfl, aligned⟩) rfl hr s

/-- STATUS is no data register, so its write is never locked (R55, R58). -/
theorem busTransfer_writeStatus (w : Word) (s : State) :
    busTransfer (writeTransfer 0x008#12 w) s = respond (some writeAnswer) (writeStatus w s) :=
  busTransfer_writeTransfer (reg := .status) rfl rfl w s

/-- Settles O35: the transfer is `writeStatus` and the answer to a write. -/
theorem statusWriteClearsWhereOneIsWritten : Obligations.StatusWriteClearsWhereOneIsWritten :=
  fun s w => ⟨_, busTransfer_writeStatus w s, rfl, rfl, rfl, rfl⟩

end Machine
end Sys2Proof
end

section
/-! PROOFS. Every step keeps the invariants of the sequencer, of the cycle counter and of the working registers
(spec/10_state.md R36, R38; spec/70_reset_and_hazards.md R225). -/

namespace Sys2Proof
namespace Machine

/-! ### What a step can do -/

/-- Everything a step with a next state can do: reset, the transfer of the cycle and then the completion of the command
in flight, or the transfer alone on the state one cycle on. -/
theorem step_next_cases {s t : State} (h : step s = .next t) :
    t = resetEdge (nextPins s).bus (popPins s) ∨
    (completionDue s = true ∧ ∃ i, (busCycle (nextPins s).bus (popPins s)).pendOp = some i ∧
      exec i (busCycle (nextPins s).bus (popPins s)) = .next t) ∨
    (completionDue s = false ∧ t = busCycle (nextPins s).bus (tick (popPins s))) := by
  rw [step] at h
  rcases clockEdge_cases (nextPins s) (popPins s) with ⟨_, hedge⟩ | ⟨_, due, hedge⟩ | ⟨_, due, hedge⟩ <;>
    rw [hedge] at h
  · exact .inl (by simpa using h.symm)
  · refine .inr (.inl ⟨due, ?_⟩)
    cases pend : (busCycle (nextPins s).bus (popPins s)).pendOp with
    | none => simp [complete, pend] at h
    | some i => exact ⟨i, rfl, by rwa [complete_of_pendOp pend] at h⟩
  · exact .inr (.inr ⟨due, by simpa using h.symm⟩)

/-- Every completion is the end of a command with ERR NONE or INVALID_KEY (R172, R180). -/
theorem exec_next_endCommand {i : Instr} {s t : State} (h : exec i s = .next t) :
    ∃ code u, (code = errNone ∨ code = errInvalidKey) ∧ t = endCommand code u := by
  have scalarMul (r : Nat) :
      ∃ code u, (code = errNone ∨ code = errInvalidKey) ∧ scalarMulEnd r s = endCommand code u := by
    refine ⟨_, _, ?_, rfl⟩
    rw [scalarMulErr]
    split
    · exact .inr rfl
    · exact .inl rfl
  rw [exec_eq] at h
  injection h with h
  subst h
  cases i
  case x25519 => exact scalarMul _
  case x25519Base => exact scalarMul _
  all_goals exact ⟨_, _, .inl rfl, rfl⟩

theorem tick_of_idle {s : State} (idle : s.busy = false) : tick s = s := by
  simp [tick, idle]

theorem tick_cyclesLeft_of_busy {s : State} (busy : s.busy = true) : (tick s).cyclesLeft = s.cyclesLeft - 1 := by
  simp [tick, busy]

/-- A command in flight stays in flight through a bus cycle. -/
theorem busCycle_busy_of_busy (bus : Option Transfer) {s : State} (busy : s.busy = true) :
    (busCycle bus s).busy = true := by
  obtain ⟨_, _, _, _, _, _, -, h⟩ := busCycle_of_busy bus s busy
  rw [h]
  exact busy

/-! ### The sequencer's invariants (R38) -/

theorem sequencerOk_of_idle {s : State} (idle : s.busy = false) (pend : s.pendOp = none)
    (err : s.err = errNone ∨ s.err = errIllegalCmd ∨ s.err = errInvalidKey) : SequencerOk s :=
  ⟨by simp [idle, pend], by simp [idle], err⟩

theorem sequencerOk_endCommand {code : BitVec 4} (hcode : code = errNone ∨ code = errInvalidKey) (s : State) :
    SequencerOk (endCommand code s) :=
  sequencerOk_of_idle rfl rfl (hcode.imp_right .inr)

theorem sequencerOk_accept (i : Instr) (s : State) : SequencerOk (accept i s) :=
  ⟨by simp, fun _ => ⟨rfl, rfl⟩, .inl rfl⟩

theorem sequencerOk_tick {s : State} (h : SequencerOk s) : SequencerOk (tick s) := by
  simpa only [SequencerOk, tick_busy, tick_pendOp, tick_done, tick_err] using h

/-- In flight a bus cycle never sets DONE; while idle it accepts a command, or leaves the sequencer alone but for the
code ILLEGAL_CMD. -/
theorem sequencerOk_busCycle (bus : Option Transfer) {s : State} (h : SequencerOk s) :
    SequencerOk (busCycle bus s) := by
  obtain ⟨busy_iff, inFlight, err⟩ := h
  cases busy : s.busy with
  | true =>
    obtain ⟨_, _, done, _, _, _, hdone, hbus⟩ := busCycle_of_busy bus s busy
    obtain ⟨hd, he⟩ := inFlight busy
    have hdone : done = false := by simpa [hd] using hdone
    rw [hbus]
    exact ⟨busy_iff, fun _ => ⟨hdone, he⟩, err⟩
  | false =>
    have pend : s.pendOp = none := by simpa [busy] using busy_iff
    rcases busCycle_of_idle bus s busy with ⟨i, hbus⟩ | ⟨hb, hp, -, -, he⟩
    · rw [hbus]
      exact sequencerOk_accept i s
    · refine sequencerOk_of_idle hb (hp.trans pend) ?_
      rcases he with he | he <;> rw [he]
      · exact err
      · exact .inr (.inl rfl)

/-- Settles O46: reset and the end of a command establish the invariants, a cycle less to go and a bus cycle keep
them. -/
theorem stepKeepsTheSequencerInvariants : Obligations.StepKeepsTheSequencerInvariants := by
  intro s t h hstep
  rcases step_next_cases hstep with rfl | ⟨-, i, -, hexec⟩ | ⟨-, rfl⟩
  · exact sequencerOk_reset
  · obtain ⟨code, u, hcode, rfl⟩ := exec_next_endCommand hexec
    exact sequencerOk_endCommand hcode u
  · exact sequencerOk_busCycle _ (sequencerOk_tick (s := popPins s) h)

/-! ### The cycle counter (R225) -/

theorem counterOk_congr {s t : State} (pend : t.pendOp = s.pendOp) (cycles : t.cyclesLeft = s.cyclesLeft) :
    CounterOk t ↔ CounterOk s := by
  rw [CounterOk, CounterOk, pend, cycles]

theorem counterOk_accept (i : Instr) (s : State) : CounterOk (accept i s) :=
  ⟨Nat.le_add_left 1 _, Nat.le_refl _⟩

theorem counterOk_busCycle (bus : Option Transfer) {s : State} (h : CounterOk s) : CounterOk (busCycle bus s) := by
  cases busy : s.busy with
  | true =>
    obtain ⟨_, _, _, _, _, _, -, hbus⟩ := busCycle_of_busy bus s busy
    rw [hbus]
    exact h
  | false =>
    rcases busCycle_of_idle bus s busy with ⟨i, hbus⟩ | ⟨-, hp, hc, -⟩
    · rw [hbus]
      exact counterOk_accept i s
    · exact (counterOk_congr hp hc).mpr h

/-- A command that is not due has at least two cycles to go, so at least one remains. -/
theorem counterOk_tick {s : State} (h : CounterOk s) (due : completionDue s = false) : CounterOk (tick s) := by
  cases busy : s.busy with
  | false => rwa [tick_of_idle busy]
  | true =>
    have hc : 1 < s.cyclesLeft := by simpa [completionDue, busy] using due
    cases pend : s.pendOp with
    | none =>
      simp only [CounterOk, pend] at h
      omega
    | some i =>
      simp only [CounterOk, pend] at h
      simp only [CounterOk, tick_pendOp, pend, tick_cyclesLeft_of_busy busy]
      omega

/-! ### The working registers (R36) -/

theorem workClear_of_busy {s : State} (busy : s.busy = true) : WorkClear s := by
  simp [WorkClear, busy]

theorem workClear_busCycle (bus : Option Transfer) {s : State} (h : WorkClear s) : WorkClear (busCycle bus s) := by
  cases busy : s.busy with
  | true => exact workClear_of_busy (busCycle_busy_of_busy bus busy)
  | false =>
    rcases busCycle_of_idle bus s busy with ⟨i, hbus⟩ | ⟨-, -, -, hw, -⟩
    · rw [hbus]
      exact workClear_of_busy rfl
    · exact fun _ => hw.trans (h busy)

theorem workClear_tick {s : State} (h : WorkClear s) : WorkClear (tick s) := by
  cases busy : s.busy with
  | true => exact workClear_of_busy (by rw [tick_busy, busy])
  | false => rwa [tick_of_idle busy]

/-- Settles O47: reset and the end of a command leave the counter and the working registers zero; a cycle less to go
and a bus cycle keep both invariants. -/
theorem stepKeepsTheHiddenStateInOrder : Obligations.StepKeepsTheHiddenStateInOrder := by
  intro s t _ counter work hstep
  rcases step_next_cases hstep with rfl | ⟨-, i, -, hexec⟩ | ⟨due, rfl⟩
  · exact ⟨counterOk_reset, workClear_reset⟩
  · obtain ⟨code, u, -, rfl⟩ := exec_next_endCommand hexec
    exact ⟨rfl, fun _ => rfl⟩
  · exact ⟨counterOk_busCycle _ (counterOk_tick (s := popPins s) counter due),
      workClear_busCycle _ (workClear_tick (s := popPins s) work)⟩

end Machine
end Sys2Proof
end

section
/-! PROOFS. Two runs side by side, and the working registers, which no run can observe (spec/10_state.md R35). -/

namespace Sys2Proof
namespace Machine

/-! ### Two runs side by side -/

/-- Two outcomes alike up to `R`: both go on, in states that `R` relates, or both stop with the same fault. -/
def OutcomesAlike (R : State → State → Prop) (o o' : Host.Outcome State Fault Refusal) : Prop :=
  (∃ t t', o = .next t ∧ o' = .next t' ∧ R t t') ∨ ∃ f, o = .fault f ∧ o' = .fault f

/-- A relation that one step keeps is kept by any number of steps. -/
theorem core_run_alike {R : State → State → Prop}
    (hstep : ∀ s s', R s s' → OutcomesAlike R (step s) (step s')) (n : Nat) {s s' : State} (h : R s s') :
    OutcomesAlike R (core.run n s) (core.run n s') := by
  induction n generalizing s s' with
  | zero => exact .inl ⟨s, s', rfl, rfl, h⟩
  | succ n ih =>
    rcases hstep s s' h with ⟨t, t', ht, ht', htt'⟩ | ⟨f, hf, hf'⟩
    · rw [core_run_of_next ht, core_run_of_next ht']
      exact ih htt'
    · exact .inr ⟨f, core_run_of_fault hf n, core_run_of_fault hf' n⟩

/-! ### Operations do not look at the working registers -/

theorem sameButWork_iff (s t : State) : SameButWork s t ↔ ∃ k, t = { s with work := k } := by
  constructor
  · intro h
    exact ⟨t.work, congrArg (fun u : State => { u with work := t.work }) h.symm⟩
  · rintro ⟨k, rfl⟩
    rfl

theorem irq_eq_of_sameButWork {s t : State} (h : SameButWork s t) : irq s = irq t := by
  obtain ⟨k, rfl⟩ := (sameButWork_iff s t).mp h
  rfl

section

variable (s : State) (k : Working)

theorem commandWrite_sameButWork (w : Word) :
    SameButWork (commandWrite w s) (commandWrite w { s with work := k }) := by
  unfold commandWrite
  split
  next => rfl
  next => split <;> rfl

/-- A write of CMD is the only one that acts on more than its own register. -/
theorem writeReg_sameButWork (reg : Reg) (w : Word) :
    SameButWork (writeReg reg w s) (writeReg reg w { s with work := k }) := by
  cases reg
  case cmd => exact commandWrite_sameButWork s k w
  all_goals rfl

theorem readReg_work (reg : Reg) : readReg { s with work := k } reg = readReg s reg := by
  cases reg <;> rfl

theorem locked_work (reg : Reg) : locked { s with work := k } reg = locked s reg := rfl

theorem respond_sameButWork {s t : State} (r : Option BusResponse) (h : SameButWork s t) :
    SameButWork (respond r s) (respond r t) :=
  congrArg (respond r) h

theorem busRead_sameButWork (off : BitVec 12) :
    SameButWork (busRead off s) (busRead off { s with work := k }) := by
  rw [busRead, busRead, locked_work s k, readReg_work s k]
  split <;> rfl

theorem busWrite_sameButWork (off : BitVec 12) (w : Word) :
    SameButWork (busWrite off w s) (busWrite off w { s with work := k }) := by
  rw [busWrite, busWrite, locked_work s k]
  refine respond_sameButWork _ ?_
  cases locked s (regAt off) with
  | true => rfl
  | false => exact writeReg_sameButWork s k (regAt off) w

theorem busCycle_sameButWork (bus : Option Transfer) :
    SameButWork (busCycle bus s) (busCycle bus { s with work := k }) := by
  cases bus with
  | none => rfl
  | some t =>
    rw [busCycle, busCycle, busTransfer, busTransfer]
    cases t.legal with
    | false => rfl
    | true =>
      cases t.we with
      | true => exact busWrite_sameButWork s k t.addr t.wdata
      | false => exact busRead_sameButWork s k t.addr

theorem tick_sameButWork : SameButWork (tick s) (tick { s with work := k }) := by
  unfold tick
  split <;> rfl

/-- A completion clears the working registers and reads none. -/
theorem exec_work (i : Instr) : exec i { s with work := k } = exec i s := by
  cases i <;> rfl

theorem complete_work : complete { s with work := k } = complete s := by
  simp only [complete, exec_work]

/-- A completion is never refused. -/
theorem complete_alike_self : OutcomesAlike SameButWork (complete s) (complete s) := by
  cases pend : s.pendOp with
  | none => exact .inr ⟨.noCommandInFlight, by simp [complete, pend], by simp [complete, pend]⟩
  | some i =>
    rw [complete_of_pendOp pend, exec_eq]
    exact .inl ⟨_, _, rfl, rfl, rfl⟩

theorem clockEdge_alike (p : Pins) :
    OutcomesAlike SameButWork (clockEdge p s) (clockEdge p { s with work := k }) := by
  have due : completionDue { s with work := k } = completionDue s := rfl
  simp only [clockEdge, due]
  split
  next =>
    split
    next =>
      obtain ⟨k', h⟩ := (sameButWork_iff _ _).mp (busCycle_sameButWork s k p.bus)
      rw [h, complete_work]
      exact complete_alike_self _
    next =>
      obtain ⟨k', h⟩ := (sameButWork_iff _ _).mp (tick_sameButWork s k)
      rw [h]
      exact .inl ⟨_, _, rfl, rfl, busCycle_sameButWork _ k' p.bus⟩
  next => exact .inl ⟨_, _, rfl, rfl, rfl⟩

end

theorem step_alike {s s' : State} (h : SameButWork s s') : OutcomesAlike SameButWork (step s) (step s') := by
  obtain ⟨k, rfl⟩ := (sameButWork_iff s s').mp h
  exact clockEdge_alike (popPins s) k (nextPins s)

/-- Settles O53: one step keeps two states the same but for the working registers, so every run does; the interrupt
does not look at them. -/
theorem workingRegistersCannotBeObserved : Obligations.WorkingRegistersCannotBeObserved := by
  intro n s s' h
  rcases core_run_alike (fun _ _ => step_alike) n h with ⟨t, t', ht, ht', same⟩ | stopped
  · exact .inl ⟨t, t', ht, ht', same, irq_eq_of_sameButWork same⟩
  · exact .inr stopped

end Machine
end Sys2Proof
end

section
/-! PROOFS. The address map: registers and offsets, and host addresses of the window
(spec/20_memory.md R50, R53, R57). -/

namespace Sys2Proof
namespace Machine

/-! ### The register at an offset -/

/-- The offsets at which a register stands, aligned or not: those with its word number, or the reserved stretches
(R53, R57). -/
def Reg.covers (reg : Reg) (n : Nat) : Prop :=
  match reg with
  | .id => n / 4 = 0x00
  | .ctrl => n / 4 = 0x01
  | .status => n / 4 = 0x02
  | .cmd => n / 4 = 0x03
  | .a j => n / 4 = 0x10 + j.val
  | .b j => n / 4 = 0x18 + j.val
  | .r j => n / 4 = 0x20 + j.val
  | .dig j => n / 4 = 0x28 + j.val
  | .blk j => n / 4 = 0x40 + j.val
  | .reserved => (0x010 ≤ n ∧ n < 0x040) ∨ (0x0B0 ≤ n ∧ n < 0x100) ∨ 0x140 ≤ n

/-- The register the address map gives at an offset stands there. -/
theorem covers_regAt (off : BitVec 12) : (regAt off).covers off.toNat := by
  unfold regAt
  generalize off.toNat = n
  repeat' refine iteInduction (motive := fun reg : Reg => reg.covers n) (fun _ => ?_) fun _ => ?_
  all_goals simp only [Reg.covers, Fin.ofNat]
  all_goals omega

theorem regAt_ne_of_not_covers {reg : Reg} {off : BitVec 12} (h : ¬ reg.covers off.toNat) : regAt off ≠ reg :=
  fun hr => h (hr ▸ covers_regAt off)

/-- The reserved offsets are those between and after the registers (R57). -/
theorem regAt_eq_reserved_iff (off : BitVec 12) : regAt off = .reserved ↔
    (0x010 ≤ off.toNat ∧ off.toNat < 0x040) ∨ (0x0B0 ≤ off.toNat ∧ off.toNat < 0x100) ∨ 0x140 ≤ off.toNat := by
  have h := covers_regAt off
  cases hr : regAt off <;> simp only [hr, Reg.covers] at h <;> simp only [reduceCtorEq, true_iff, false_iff] <;> omega

/-- The data registers stand in two stretches of the window: A, B, R and DIG, and BLK (R53). -/
theorem regAt_isData_iff (off : BitVec 12) : (regAt off).isData = true ↔
    (0x040 ≤ off.toNat ∧ off.toNat < 0x0B0) ∨ (0x100 ≤ off.toNat ∧ off.toNat < 0x140) := by
  have h := covers_regAt off
  cases hr : regAt off <;> simp only [hr, Reg.covers] at h <;>
    simp only [Reg.isData, Bool.false_eq_true, true_iff, false_iff] <;> omega

theorem ofNat_of_toNat_eq {off : BitVec 12} {n : Nat} (h : off.toNat = n) : BitVec.ofNat 12 n = off :=
  BitVec.eq_of_toNat_eq (by rw [BitVec.toNat_ofNat, ← h, Nat.mod_eq_of_lt off.isLt])

/-- The offset of the register at an aligned offset, if one stands there (R53). -/
theorem offset_regAt {off : BitVec 12} (aligned : off.toNat % 4 = 0) (named : regAt off ≠ .reserved) :
    (regAt off).offset = some off := by
  have h := covers_regAt off
  cases hr : regAt off <;> simp only [hr, Reg.covers] at h
  case reserved => exact absurd hr named
  all_goals exact congrArg some (ofNat_of_toNat_eq (by omega))

/-- Every register stands at its offset, which is aligned: one closed fact for each family of registers. -/
theorem regAt_of_offset {reg : Reg} {off : BitVec 12} (h : reg.offset = some off) :
    regAt off = reg ∧ off.toNat % 4 = 0 := by
  cases reg <;> simp only [Reg.offset, Option.some.injEq, reduceCtorEq] at h <;> subst h
  case id | ctrl | status | cmd => decide
  case a j | b j | r j | dig j | blk j => revert j; decide

/-- No two aligned offsets name the same register (R53). -/
theorem regAt_inj {off off' : BitVec 12} (aligned : off.toNat % 4 = 0) (aligned' : off'.toNat % 4 = 0)
    (named : regAt off ≠ .reserved) (h : regAt off' = regAt off) : off' = off := by
  have ho := offset_regAt aligned named
  have ho' := offset_regAt aligned' (h ▸ named)
  rw [h, ho] at ho'
  exact (Option.some.inj ho').symm

/-- Settles O29: a register stands at its offset, the register at an aligned offset has that offset, and the reserved
offsets are those between and after the registers. -/
theorem addressMapNamesEveryRegister : Obligations.AddressMapNamesEveryRegister := by
  refine ⟨fun reg off => regAt_of_offset, fun off aligned => ⟨?_, offset_regAt aligned⟩⟩
  rw [regAt_eq_reserved_iff]
  omega

/-! ### Host addresses -/

/-- A host address lies in the window at an offset exactly if it is that offset's address (R10, R50). -/
theorem windowOffset_eq_some_iff (addr : Nat) (off : BitVec 12) :
    windowOffset addr = some off ↔ hostAddress off = addr := by
  have hoff := off.isLt
  unfold windowOffset hostAddress
  split
  next inside =>
    rw [Option.some.injEq, ← BitVec.toNat_inj, BitVec.toNat_ofNat]
    omega
  next outside =>
    simp only [reduceCtorEq, false_iff]
    omega

theorem windowOffset_eq_none_iff (addr : Nat) :
    windowOffset addr = none ↔ addr < Config.windowBase ∨ Config.windowBase + 4096 ≤ addr := by
  unfold windowOffset
  split <;> simp only [reduceCtorEq, true_iff, false_iff] <;> omega

/-- Settles O39: the window's first address is a multiple of 4096, and an address in the window determines its offset,
and the offset its address. -/
theorem windowAddressesAndOffsetsCorrespond : Obligations.WindowAddressesAndOffsetsCorrespond :=
  ⟨Nat.mul_mod_right 4096 _, fun off => (windowOffset_eq_some_iff _ off).mpr rfl, windowOffset_eq_some_iff,
    windowOffset_eq_none_iff⟩

end Machine
end Sys2Proof
end

section
/-! PROOFS. Reads and writes of the registers, one after another (spec/20_memory.md R54, R55, R65). -/

namespace Sys2Proof
namespace Machine

/-! ### The answer field and the registers -/

/-- No register's reading depends on the bus's answer. -/
@[simp] theorem readReg_respond (r : Option BusResponse) (reg : Reg) (s : State) :
    readReg (respond r s) reg = readReg s reg := by
  cases reg <;> rfl

@[simp] theorem locked_respond (r : Option BusResponse) (reg : Reg) (s : State) :
    locked (respond r s) reg = locked s reg := rfl

@[simp] theorem respond_respond (r r' : Option BusResponse) (s : State) :
    respond r (respond r' s) = respond r s := rfl

@[simp] theorem flagAccessError_respond (r : Option BusResponse) (s : State) :
    flagAccessError (respond r s) = respond r (flagAccessError s) := rfl

@[simp] theorem flagAccessError_flagAccessError (s : State) :
    flagAccessError (flagAccessError s) = flagAccessError s := rfl

@[simp] theorem locked_flagAccessError (reg : Reg) (s : State) :
    locked (flagAccessError s) reg = locked s reg := rfl

/-- What a write does, but for a command's start, has nothing to do with the bus's answer. -/
theorem writeReg_respond {reg : Reg} (notCmd : reg ≠ .cmd) (r : Option BusResponse) (w : Word) (s : State) :
    writeReg reg w (respond r s) = respond r (writeReg reg w s) := by
  cases reg
  case cmd => exact absurd rfl notCmd
  all_goals rfl

theorem locked_of_idle {s : State} (idle : s.busy = false) (reg : Reg) : locked s reg = false := by
  rw [locked, idle, Bool.and_false]

theorem locked_of_isData {reg : Reg} (data : reg.isData = true) (s : State) : locked s reg = s.busy := by
  rw [locked, data, Bool.true_and]

theorem locked_of_not_isData {reg : Reg} (control : reg.isData = false) (s : State) : locked s reg = false := by
  rw [locked, control, Bool.false_and]

/-! ### Registers that ignore writes -/

/-- The registers a write does not change: ID, the words of R, and the reserved offsets (R24, R32, R57). -/
def Reg.readOnly : Reg → Bool
  | .id | .r _ | .reserved => true
  | .ctrl | .status | .cmd | .a _ | .b _ | .dig _ | .blk _ => false

theorem writeReg_of_readOnly {reg : Reg} (ro : reg.readOnly = true) (w : Word) (s : State) :
    writeReg reg w s = s := by
  cases reg
  case id | r j | reserved => rfl
  all_goals exact absurd ro Bool.false_ne_true

theorem regAt_readOnly_iff (off : BitVec 12) : (regAt off).readOnly = true ↔
    off.toNat < 0x004 ∨ (0x010 ≤ off.toNat ∧ off.toNat < 0x040) ∨ (0x080 ≤ off.toNat ∧ off.toNat < 0x0A0) ∨
      (0x0B0 ≤ off.toNat ∧ off.toNat < 0x100) ∨ 0x140 ≤ off.toNat := by
  have h := covers_regAt off
  cases hr : regAt off <;> simp only [hr, Reg.covers] at h <;>
    simp only [Reg.readOnly, Bool.false_eq_true, true_iff, false_iff] <;> omega

/-! ### A read after a write -/

/-- Only a command's start changes BUSY. -/
theorem writeReg_busy {reg : Reg} (notCmd : reg ≠ .cmd) (w : Word) (s : State) :
    (writeReg reg w s).busy = s.busy := by
  cases reg
  case cmd => exact absurd rfl notCmd
  all_goals rfl

/-- A word of A, B, DIG or BLK reads as it was written. -/
theorem readReg_writeReg_same {reg : Reg} (data : reg.isData = true) (writable : reg.readOnly = false) (w : Word)
    (s : State) : readReg (writeReg reg w s) reg = w := by
  cases reg
  case a j | b j | dig j | blk j => exact Vector.getElem_set_self j.isLt
  case r j => exact absurd writable (Ne.symm Bool.false_ne_true)
  all_goals exact absurd data Bool.false_ne_true

/-- A write changes no other register: only words of one file need an argument, that of two different places. -/
theorem readReg_writeReg_of_ne {reg reg' : Reg} (notCmd : reg ≠ .cmd) (ne : reg' ≠ reg) (w : Word) (s : State) :
    readReg (writeReg reg w s) reg' = readReg s reg' := by
  have place {n : Nat} {j j' : Fin n} (f : Vector Word n) (hj : j' ≠ j) : (f.set j w)[j'] = f[j'] :=
    Vector.getElem_set_ne j.isLt j'.isLt (fun h => hj (Fin.ext h.symm))
  cases reg with
  | cmd => exact absurd rfl notCmd
  | id | r | reserved => rfl
  | ctrl => cases reg' with
    | ctrl => exact absurd rfl ne
    | _ => rfl
  | status => cases reg' with
    | status => exact absurd rfl ne
    | _ => rfl
  | a j => cases reg' with
    | a j' => exact place s.fileA fun h => ne (h ▸ rfl)
    | _ => rfl
  | b j => cases reg' with
    | b j' => exact place s.fileB fun h => ne (h ▸ rfl)
    | _ => rfl
  | dig j => cases reg' with
    | dig j' => exact place s.dig fun h => ne (h ▸ rfl)
    | _ => rfl
  | blk j => cases reg' with
    | blk j' => exact place s.blk fun h => ne (h ▸ rfl)
    | _ => rfl

/-- Writing the same word again to a register that starts no command changes nothing (R59). -/
theorem writeReg_writeReg {reg : Reg} (notCmd : reg ≠ .cmd) (w : Word) (s : State) :
    writeReg reg w (writeReg reg w s) = writeReg reg w s := by
  cases reg
  case cmd => exact absurd rfl notCmd
  case id | r j | reserved | ctrl => rfl
  case status => simp [writeReg, writeStatus]
  case a j | b j | dig j | blk j => simp [writeReg, writeA, writeB, writeDig, writeBlk]

/-- A CMD write never touches ACCERR (R174). -/
theorem commandWrite_accerr (w : Word) (s : State) : (commandWrite w s).accerr = s.accerr := by
  rcases commandWrite_cases w s with ⟨_, h⟩ | ⟨_, i, _, h⟩ | ⟨_, _, h⟩ <;> rw [h] <;> rfl

/-- No register's own write touches ACCERR but that of STATUS. -/
theorem writeReg_accerr {reg : Reg} (notStatus : reg ≠ .status) (w : Word) (s : State) :
    (writeReg reg w s).accerr = s.accerr := by
  cases reg
  case status => exact absurd rfl notStatus
  case cmd => exact commandWrite_accerr w s
  all_goals rfl

/-! ### Bits of a written word -/

/-- Words that agree on a field of bits, as a number, agree on each of its bits. -/
theorem getLsbD_eq_of_field_eq {w w' : Word} {lo len i : Nat}
    (h : w.toNat / 2 ^ lo % 2 ^ len = w'.toNat / 2 ^ lo % 2 ^ len) (hi : i < len) :
    w.getLsbD (lo + i) = w'.getLsbD (lo + i) := by
  have hbit := congrArg (Nat.testBit · i) h
  simp only [Nat.testBit_mod_two_pow, Nat.testBit_div_two_pow, hi, decide_true, Bool.true_and,
    Nat.add_comm i lo] at hbit
  exact hbit

theorem writeCtrl_eq_of_mod_eq {w w' : Word} (h : w.toNat % 4 = w'.toNat % 4) (s : State) :
    writeCtrl w s = writeCtrl w' s := by
  have field : w.toNat / 2 ^ 0 % 2 ^ 2 = w'.toNat / 2 ^ 0 % 2 ^ 2 := by simpa using h
  have h0 := getLsbD_eq_of_field_eq (i := 0) field (by decide)
  have h1 := getLsbD_eq_of_field_eq (i := 1) field (by decide)
  simp only [writeCtrl, h0, h1]

theorem writeStatus_eq_of_field_eq {w w' : Word} (h : w.toNat / 2 % 8 = w'.toNat / 2 % 8) (s : State) :
    writeStatus w s = writeStatus w' s := by
  have field : w.toNat / 2 ^ 1 % 2 ^ 3 = w'.toNat / 2 ^ 1 % 2 ^ 3 := h
  have h1 := getLsbD_eq_of_field_eq (i := 0) field (by decide)
  have h2 := getLsbD_eq_of_field_eq (i := 1) field (by decide)
  have h3 := getLsbD_eq_of_field_eq (i := 2) field (by decide)
  simp only [writeStatus, h1, h2, h3]

/-- CTRL reads as the two bits last written to it (R25). -/
theorem ctrlWord_writeCtrl_toNat (w : Word) (s : State) : (ctrlWord (writeCtrl w s)).toNat = w.toNat % 4 := by
  have h0 : (w.getLsbD 0).toNat = w.toNat / 2 ^ 0 % 2 := Nat.toNat_testBit w.toNat 0
  have h1 : (w.getLsbD 1).toNat = w.toNat / 2 ^ 1 % 2 := Nat.toNat_testBit w.toNat 1
  rw [ctrlWord_toNat, writeCtrl_irqen, writeCtrl_lowchk, h0, h1]
  omega

/-- The reserved bits of CTRL read 0 (R25). -/
theorem ctrlWord_lt (s : State) : (ctrlWord s).toNat < 4 := by
  rw [ctrlWord_toNat]
  have h1 := Bool.toNat_le s.irqen
  have h2 := Bool.toNat_le s.lowchk
  omega

/-- The reserved bits of STATUS read 0 (R26). -/
theorem statusWord_lt (s : State) : (statusWord s).toNat < 256 := by
  rw [statusWord_toNat]
  have h1 := Bool.toNat_le s.busy
  have h2 := Bool.toNat_le s.done
  have h3 := Bool.toNat_le s.ovr
  have h4 := Bool.toNat_le s.accerr
  have h5 := s.err.isLt
  omega

end Machine
end Sys2Proof
end

section
/-! PROOFS. What one transfer answers and changes, at every offset, busy or idle (spec/20_memory.md R54-R59, R65). -/

namespace Sys2Proof
namespace Machine

/-! ### A legal transfer at a register -/

section

variable {t : Transfer} {reg : Reg} (size : t.size = 2#2) (stands : regAt t.addr = reg ∧ t.addr.toNat % 4 = 0)
include size stands

/-- A read of ID, CTRL, STATUS, CMD or a reserved offset is never locked (R54). -/
theorem busTransfer_readControl (we : t.we = false) (control : reg.isData = false) (s : State) :
    busTransfer t s = respond (some (readAnswer (readReg s reg))) s := by
  rw [busTransfer_read ((Transfer.legal_iff t).mpr ⟨size, stands.2⟩) we stands.1, locked_of_not_isData control]
  rfl

/-- A read of a data register is locked while busy (R54, R58). -/
theorem busTransfer_readData (we : t.we = false) (data : reg.isData = true) (s : State) :
    busTransfer t s = if s.busy then respond (some (readAnswer 0#32)) (flagAccessError s)
      else respond (some (readAnswer (readReg s reg))) s := by
  rw [busTransfer_read ((Transfer.legal_iff t).mpr ⟨size, stands.2⟩) we stands.1, locked_of_isData data]

/-- A write of ID, CTRL, STATUS, CMD or a reserved offset is never locked (R55). -/
theorem busTransfer_writeControl (we : t.we = true) (control : reg.isData = false) (s : State) :
    busTransfer t s = respond (some writeAnswer) (writeReg reg t.wdata s) := by
  rw [busTransfer_write ((Transfer.legal_iff t).mpr ⟨size, stands.2⟩) we stands.1, locked_of_not_isData control]
  rfl

/-- A write of a data register is locked while busy (R55, R58). -/
theorem busTransfer_writeData (we : t.we = true) (data : reg.isData = true) (s : State) :
    busTransfer t s = if s.busy then respond (some writeAnswer) (flagAccessError s)
      else respond (some writeAnswer) (writeReg reg t.wdata s) := by
  rw [busTransfer_write ((Transfer.legal_iff t).mpr ⟨size, stands.2⟩) we stands.1, locked_of_isData data]
  exact apply_ite _ _ _ _

end

/-- A register at its offset, the offset given as a number. -/
theorem regAt_of_toNat_eq {reg : Reg} {off : BitVec 12} {n : Nat} (named : reg.offset = some (BitVec.ofNat 12 n))
    (h : off.toNat = n) : regAt off = reg ∧ off.toNat % 4 = 0 :=
  regAt_of_offset (named.trans (congrArg some (ofNat_of_toNat_eq h)))

theorem regAt_reserved {off : BitVec 12} (aligned : off.toNat % 4 = 0)
    (h : (0x010 ≤ off.toNat ∧ off.toNat ≤ 0x03C) ∨ (0x0B0 ≤ off.toNat ∧ off.toNat ≤ 0x0FC) ∨ 0x140 ≤ off.toNat) :
    regAt off = .reserved ∧ off.toNat % 4 = 0 :=
  ⟨(regAt_eq_reserved_iff off).mpr (by omega), aligned⟩

/-- Settles O30: the error answer to a transfer that is not legal, and the answer of a legal read or write. -/
theorem illegalTransferAnswersErrorAndChangesNothing : Obligations.IllegalTransferAnswersErrorAndChangesNothing := by
  refine fun s t => ⟨fun h => ?_, fun size aligned => ?_⟩
  · refine busTransfer_illegal ?_ s
    rw [← Bool.not_eq_true, Transfer.legal_iff]
    tauto
  · have legal := (Transfer.legal_iff t).mpr ⟨size, aligned⟩
    cases we : t.we
    case true => exact ⟨none, by rw [busTransfer_write legal we rfl]; rfl, nofun⟩
    case false =>
      rw [busTransfer_read legal we rfl]
      split
      next => exact ⟨some 0#32, rfl, nofun⟩
      next => exact ⟨_, rfl, nofun⟩

/-- Settles O31: a read at each register's offset. -/
theorem legalReadReturnsTheRegister : Obligations.LegalReadReturnsTheRegister := by
  intro s t we size
  exact ⟨fun h => busTransfer_readControl size (regAt_of_toNat_eq (reg := .id) rfl h) we rfl s,
    fun h => ⟨_, busTransfer_readControl size (regAt_of_toNat_eq (reg := .ctrl) rfl h) we rfl s, ctrlWord_toNat s⟩,
    fun h => ⟨_, busTransfer_readControl size (regAt_of_toNat_eq (reg := .status) rfl h) we rfl s, statusWord_toNat s⟩,
    fun h => busTransfer_readControl size (regAt_of_toNat_eq (reg := .cmd) rfl h) we rfl s,
    fun j h => busTransfer_readData size (regAt_of_toNat_eq (reg := .a j) rfl h) we rfl s,
    fun j h => busTransfer_readData size (regAt_of_toNat_eq (reg := .b j) rfl h) we rfl s,
    fun j h => busTransfer_readData size (regAt_of_toNat_eq (reg := .r j) rfl h) we rfl s,
    fun j h => busTransfer_readData size (regAt_of_toNat_eq (reg := .dig j) rfl h) we rfl s,
    fun j h => busTransfer_readData size (regAt_of_toNat_eq (reg := .blk j) rfl h) we rfl s,
    fun aligned h => busTransfer_readControl size (regAt_reserved aligned h) we rfl s⟩

/-- Settles O32: a write at each register's offset. -/
theorem legalWriteActsOnItsRegisterOnly : Obligations.LegalWriteActsOnItsRegisterOnly := by
  intro s t we size
  exact ⟨fun h => busTransfer_writeControl size (regAt_of_toNat_eq (reg := .id) rfl h) we rfl s,
    fun h => busTransfer_writeControl size (regAt_of_toNat_eq (reg := .ctrl) rfl h) we rfl s,
    fun h => busTransfer_writeControl size (regAt_of_toNat_eq (reg := .status) rfl h) we rfl s,
    fun h => busTransfer_writeControl size (regAt_of_toNat_eq (reg := .cmd) rfl h) we rfl s,
    fun j h => busTransfer_writeData size (regAt_of_toNat_eq (reg := .a j) rfl h) we rfl s,
    fun j h => busTransfer_writeData size (regAt_of_toNat_eq (reg := .b j) rfl h) we rfl s,
    fun j h => busTransfer_writeData size (regAt_of_toNat_eq (reg := .r j) rfl h) we rfl s,
    fun j h => busTransfer_writeData size (regAt_of_toNat_eq (reg := .dig j) rfl h) we rfl s,
    fun j h => busTransfer_writeData size (regAt_of_toNat_eq (reg := .blk j) rfl h) we rfl s,
    fun aligned h => busTransfer_writeControl size (regAt_reserved aligned h) we rfl s⟩

/-- Settles O33: a data register is locked; a transfer to another register changes ACCERR only through STATUS; and a
bus cycle while busy can change flags and CTRL only. -/
theorem busyLockKeepsEveryDataRegister : Obligations.BusyLockKeepsEveryDataRegister := by
  intro s t busy
  refine ⟨fun size aligned data => ?_, fun size aligned notStatus control => ?_, ?_⟩
  · rw [← regAt_isData_iff] at data
    cases we : t.we
    case true => rw [busTransfer_writeData size ⟨rfl, aligned⟩ we data, if_pos busy]; rfl
    case false => rw [busTransfer_readData size ⟨rfl, aligned⟩ we data, if_pos busy]; rfl
  · rw [← regAt_isData_iff, Bool.not_eq_true] at control
    cases we : t.we
    case true =>
      rw [busTransfer_writeControl size ⟨rfl, aligned⟩ we control]
      have ne : regAt t.addr ≠ .status := regAt_ne_of_not_covers (by rw [Reg.covers]; omega)
      exact writeReg_accerr ne t.wdata s
    case false => rw [busTransfer_readControl size ⟨rfl, aligned⟩ we control]; rfl
  · obtain ⟨_, _, _, _, _, _, -, h⟩ := busCycle_of_busy (some t) s busy
    rw [busCycle] at h
    rw [h]
    exact ⟨rfl, rfl, rfl, rfl, rfl⟩

/-- Settles O34: a transfer at a reserved offset, and the bits of CTRL and STATUS that are read and written. -/
theorem reservedOffsetsAndBitsReadZeroAndIgnoreWrites :
    Obligations.ReservedOffsetsAndBitsReadZeroAndIgnoreWrites := by
  refine ⟨fun s t size aligned h => ?_, fun s => ⟨ctrlWord_lt s, statusWord_lt s⟩, fun s w w' h => ?_,
    fun s w w' h => ?_⟩
  · have reserved := regAt_reserved aligned (h.imp id (.imp id And.left))
    cases we : t.we
    case true => exact busTransfer_writeControl size reserved we rfl s
    case false => exact busTransfer_readControl size reserved we rfl s
  · have write (v : Word) := busTransfer_writeTransfer (off := 0x004#12) (reg := .ctrl) rfl rfl v s
    rw [write w, write w']
    exact congrArg (respond (some writeAnswer)) (writeCtrl_eq_of_mod_eq h s)
  · rw [busTransfer_writeStatus, busTransfer_writeStatus, writeStatus_eq_of_field_eq h]

/-! ### Two transfers, one after another -/

/-- A read while idle answers what the register holds. -/
theorem busTransfer_readTransfer_resp {off : BitVec 12} (aligned : off.toNat % 4 = 0) {s : State}
    (idle : s.busy = false) :
    (busTransfer (readTransfer off) s).resp = some (readAnswer (readReg s (regAt off))) := by
  have legal := (Transfer.legal_iff (readTransfer off)).mpr ⟨rfl, aligned⟩
  rw [busTransfer_read legal rfl rfl, locked_of_idle idle]
  rfl

/-- A read right after a write while idle, except a write of CMD, answers what the register holds after the write. -/
theorem resp_read_after_write {off off' : BitVec 12} (aligned : off.toNat % 4 = 0) (aligned' : off'.toNat % 4 = 0)
    (notCmd : regAt off ≠ .cmd) (w : Word) {s : State} (idle : s.busy = false) :
    (busTransfer (readTransfer off') (busTransfer (writeTransfer off w) s)).resp =
      some (readAnswer (readReg (writeReg (regAt off) w s) (regAt off'))) := by
  have write := busTransfer_writeTransfer aligned rfl w s
  rw [locked_of_idle idle] at write
  have still : (busTransfer (writeTransfer off w) s).busy = false := by
    rw [write]
    exact (writeReg_busy notCmd w s).trans idle
  rw [busTransfer_readTransfer_resp aligned' still, write, readReg_respond]
  rfl

/-- After a write of another register, or of one that ignores writes, a register reads as before. -/
theorem readReg_writeReg_other {off off' : BitVec 12} (aligned : off.toNat % 4 = 0) (aligned' : off'.toNat % 4 = 0)
    (notCmd : regAt off ≠ .cmd) (other : off' ≠ off ∨ (regAt off).readOnly = true) (w : Word) (s : State) :
    readReg (writeReg (regAt off) w s) (regAt off') = readReg s (regAt off') := by
  by_cases ro : (regAt off).readOnly = true
  · rw [writeReg_of_readOnly ro]
  · refine readReg_writeReg_of_ne notCmd (fun same => ?_) w s
    have named : regAt off ≠ .reserved := fun hr => ro (hr ▸ rfl)
    exact other.elim (· (regAt_inj aligned aligned' named same)) ro

/-- Settles O36: a written word reads back, CTRL's two bits too, and no other register's reading changes. -/
theorem readAfterWriteReturnsTheWord : Obligations.ReadAfterWriteReturnsTheWord := by
  intro s off off' w idle aligned aligned'
  refine ⟨fun inFiles notR => ?_, ?_, fun notCmd other => ?_⟩
  · have data := (regAt_isData_iff off).mpr inFiles
    have writable : (regAt off).readOnly = false := by
      rw [← Bool.not_eq_true, regAt_readOnly_iff]
      omega
    have notCmd : regAt off ≠ .cmd := regAt_ne_of_not_covers (by rw [Reg.covers]; omega)
    rw [resp_read_after_write aligned aligned notCmd w idle, readReg_writeReg_same data writable]
    rfl
  · rintro rfl
    exact ⟨_, resp_read_after_write aligned aligned (by decide) w idle, ctrlWord_writeCtrl_toNat w s⟩
  · rw [ne_eq, ← BitVec.toNat_inj, BitVec.toNat_ofNat] at notCmd
    have cmd : regAt off ≠ .cmd := regAt_ne_of_not_covers (by rw [Reg.covers]; omega)
    rw [resp_read_after_write aligned aligned' cmd w idle, busTransfer_readTransfer_resp aligned' idle,
      readReg_writeReg_other aligned aligned' cmd (other.imp id fun ignores => ?_)]
    rw [regAt_readOnly_iff]
    rcases ignores with rfl | ignores
    · exact .inl (by decide)
    · omega

/-- Reading an offset twice leaves the block as reading it once (R59). -/
theorem busRead_busRead (off : BitVec 12) (s : State) : busRead off (busRead off s) = busRead off s := by
  cases h : locked s (regAt off) <;> simp [busRead, h]

/-- Writing a word twice at an offset other than CMD leaves the block as writing it once (R59). -/
theorem busWrite_busWrite {off : BitVec 12} (notCmd : regAt off ≠ .cmd) (w : Word) (s : State) :
    busWrite off w (busWrite off w s) = busWrite off w s := by
  have still : locked (writeReg (regAt off) w s) (regAt off) = locked s (regAt off) := by
    rw [locked, locked, writeReg_busy notCmd]
  cases h : locked s (regAt off) <;>
    simp [busWrite, h, still, writeReg_respond notCmd, writeReg_writeReg notCmd]

/-- A transfer that is no CMD write leaves the block, presented twice, as presented once (R56, R59). -/
theorem busTransfer_busTransfer {t : Transfer} (notCmd : t.we = true → regAt t.addr ≠ .cmd) (s : State) :
    busTransfer t (busTransfer t s) = busTransfer t s := by
  unfold busTransfer
  cases t.legal
  case false => rfl
  case true =>
    cases we : t.we
    case true => exact busWrite_busWrite (notCmd we) t.wdata s
    case false => exact busRead_busRead t.addr s

/-- Settles O37: a repeated transfer changes nothing more, unless it writes CMD; MONT_MUL's word written twice at reset
is an overrun the second time. -/
theorem repeatedTransfersHaveTheEffectOfOne : Obligations.RepeatedTransfersHaveTheEffectOfOne := by
  refine ⟨fun s off w h => busTransfer_busTransfer (fun _ => regAt_ne_of_not_covers ?_) s,
    fun s off => congrArg State.resp (busTransfer_busTransfer (t := readTransfer off) nofun s),
    State.reset, encode .montMul, fun same => ?_⟩
  · simp only [← BitVec.toNat_inj, BitVec.toNat_ofNat] at h
    simp only [writeTransfer, Reg.covers]
    omega
  · have overrun : true = false := congrArg State.ovr same
    exact nomatch overrun

end Machine
end Sys2Proof
end

section
/-! PROOFS. The byte order of the five files (spec/00_scope.md R8; spec/20_memory.md R60; spec/42_md5.md R148). -/

namespace Sys2Proof
namespace Machine

/-! ### Bytes of words -/

/-- The bytes of a list of words have its little-endian value (R8, R60). -/
theorem le_bytesOfWords (ws : List Word) : le (bytesOfWords ws) = valWords ws := by
  induction ws with
  | nil => rfl
  | cons w ws ih =>
    have hw := w.isLt
    simp only [bytesOfWords, le, valWords, ih, byteOfWord_toNat]
    omega

theorem bytesOfWords_length (ws : List Word) : (bytesOfWords ws).length = 4 * ws.length := by
  induction ws with
  | nil => rfl
  | cons w ws ih =>
    simp only [bytesOfWords, List.length_cons, ih]
    omega

/-- Byte i of a file is byte (i mod 4) of word floor(i/4) (R60). -/
theorem bytesOfWords_toList_getElem? {n : Nat} (f : Vector Word n) {i : Nat} (h : i / 4 < n) :
    (bytesOfWords f.toList)[i]? = some (byteOfWord f[i / 4] (i % 4)) := by
  rw [bytesOfWords_getElem?, Vector.getElem?_toList, Vector.getElem?_eq_getElem h, Option.map_some]

/-! ### Bytes of numbers -/

theorem leBytes_getElem? {n i : Nat} (x : Nat) (h : i < n) :
    (leBytes n x)[i]? = some (BitVec.ofNat 8 (x / 2 ^ (8 * i))) := by
  simp [leBytes, h, Nat.shiftRight_eq_div_pow]

/-- Byte 0 of a number comes first, and then the bytes of the rest. -/
theorem leBytes_succ (n x : Nat) : leBytes (n + 1) x = BitVec.ofNat 8 x :: leBytes n (x / 2 ^ 8) := by
  have shift (i : Nat) : x >>> (8 * (i + 1)) = (x / 2 ^ 8) >>> (8 * i) := by
    rw [Nat.mul_succ, Nat.add_comm, Nat.shiftRight_add, Nat.shiftRight_eq_div_pow x 8]
  simp [leBytes, List.range_succ_eq_map, shift]

/-- The byte string of a value is the string (R8). -/
theorem leBytes_le (bytes : List Byte) : leBytes bytes.length (le bytes) = bytes := by
  induction bytes with
  | nil => rfl
  | cons b bs ih =>
    have hb := b.isLt
    have head : BitVec.ofNat 8 (le (b :: bs)) = b := BitVec.eq_of_toNat_eq (by rw [BitVec.toNat_ofNat, le]; omega)
    have rest : le (b :: bs) / 2 ^ 8 = le bs := by rw [le]; omega
    rw [List.length_cons, leBytes_succ, head, rest, ih]

/-- Byte k of the word of a number, for the four bytes a word has. -/
theorem byteOfWord_ofNat (y : Nat) {k : Nat} (h : k < 4) :
    byteOfWord (BitVec.ofNat 32 y) k = BitVec.ofNat 8 (y / 2 ^ (8 * k)) := by
  apply BitVec.eq_of_toNat_eq
  rw [byteOfWord_toNat, BitVec.toNat_ofNat, BitVec.toNat_ofNat]
  interval_cases k <;> omega

/-- Byte i of a number in A, B or R (R60). -/
theorem byteOfWord_words8 (x : Nat) {i : Nat} (h : i / 4 < 8) :
    byteOfWord (words8 x)[i / 4] (i % 4) = BitVec.ofNat 8 (x / 2 ^ (8 * i)) := by
  rw [words8, Vector.getElem_ofFn, byteOfWord_ofNat _ (Nat.mod_lt i (by decide)), Nat.shiftRight_eq_div_pow,
    Nat.div_div_eq_div_mul, ← pow_add]
  congr 3
  simp only
  omega

theorem bytesOfWords_words8 (x : Nat) : bytesOfWords (words8 x).toList = bytes32 x := by
  apply List.ext_getElem?
  intro i
  by_cases h : i < 32
  · have word : i / 4 < 8 := by omega
    rw [bytesOfWords_toList_getElem? _ word, byteOfWord_words8 x word, bytes32, leBytes_getElem? x h]
  · rw [List.getElem?_eq_none, List.getElem?_eq_none]
    · simpa [bytes32, leBytes] using h
    · simpa [bytesOfWords_length] using h

/-! ### Blocks and digests -/

theorem blockOfBytes_toList {bytes : List Byte} (h : bytes.length = 64) :
    (blockOfBytes bytes).toList = wordsOfBytes bytes := by
  have words := (bytesOfWords_wordsOfBytes 16 bytes h).1
  refine List.ext_getElem (by simp [words]) fun j _ inside => ?_
  simp [blockOfBytes, inside]

/-- The bytes of a block in BLK are the block (R60). -/
theorem bytesOfWords_blockOfBytes {bytes : List Byte} (h : bytes.length = 64) :
    bytesOfWords (blockOfBytes bytes).toList = bytes := by
  rw [blockOfBytes_toList h]
  exact (bytesOfWords_wordsOfBytes 16 bytes h).2

/-- The digest bytes are the bytes of DIG (R148). -/
theorem digestBytes_chainOfDig (dig : Vector Word 4) : digestBytes (chainOfDig dig) = bytesOfWords dig.toList := by
  obtain ⟨⟨words⟩, size⟩ := dig
  match words, size with
  | [_, _, _, _], _ => rfl

/-- Settles O38: each value's bytes are the bytes of its file's words, and those are found by place. -/
theorem filesHoldTheirBytesLittleEndian : Obligations.FilesHoldTheirBytesLittleEndian := by
  refine ⟨byteOfWord_toNat, fun f => le_bytesOfWords f.toList, fun x _ => bytesOfWords_words8 x,
    fun x i => byteOfWord_words8 x (by omega), fun bytes h => ?_, fun bytes h => ?_, fun dig => ?_⟩
  · rw [bytes32, ← h, leBytes_le]
  · have block := bytesOfWords_blockOfBytes h
    refine ⟨block, fun i => ?_⟩
    calc bytes[i.val]? = (bytesOfWords (blockOfBytes bytes).toList)[i.val]? := by rw [block]
      _ = _ := bytesOfWords_toList_getElem? _ (by omega)
  · rw [digestBytes_chainOfDig]
    exact ⟨by simp [bytesOfWords_length], fun i => bytesOfWords_toList_getElem? dig (by omega)⟩

end Machine
end Sys2Proof
end

section
/-! PROOFS. Which files each command writes, and which it reads (spec/20_memory.md R64; spec/41_x25519.md R133;
spec/42_md5.md R152). -/

namespace Sys2Proof
namespace Machine

/-! ### What a command writes -/

theorem eq_of_exec_next {i : Instr} {s t u : State} (h : exec i s = .next t) (hu : exec i s = .next u) : t = u :=
  Host.Outcome.next.inj (h.symm.trans hu)

theorem exec_keeps_operands {i : Instr} {s t : State} (h : exec i s = .next t) (other : i ≠ .zeroize) :
    t.fileA = s.fileA ∧ t.fileB = s.fileB ∧ t.blk = s.blk := by
  obtain rfl := eq_of_exec_next h (exec_eq _ s)
  cases i
  case zeroize => exact absurd rfl other
  all_goals exact ⟨rfl, rfl, rfl⟩

theorem exec_keeps_result {i : Instr} {s t : State} (h : exec i s = .next t) (md5 : i = .md5Init ∨ i = .md5Block) :
    t.fileR = s.fileR := by
  obtain rfl := eq_of_exec_next h (exec_eq _ s)
  rcases md5 with rfl | rfl <;> rfl

theorem exec_keeps_digest {i : Instr} {s t : State} (h : exec i s = .next t)
    (field : i = .montMul ∨ i = .fieldRed ∨ i = .x25519 ∨ i = .x25519Base) : t.dig = s.dig := by
  obtain rfl := eq_of_exec_next h (exec_eq _ s)
  rcases field with rfl | rfl | rfl | rfl <;> rfl

/-! ### What a command reads -/

section

variable {s s' t t' : State}

/-- The field commands read A and B (R64). -/
theorem fileR_eq_of_field {i : Instr} (h : exec i s = .next t) (h' : exec i s' = .next t')
    (field : i = .montMul ∨ i = .fieldRed) (a : s.fileA = s'.fileA) (b : s.fileB = s'.fileB) : t.fileR = t'.fileR := by
  obtain rfl := eq_of_exec_next h (exec_eq _ s)
  obtain rfl := eq_of_exec_next h' (exec_eq _ s')
  rcases field with rfl | rfl
  · simp [mulOperandA, mulOperandB, a, b]
  · simp [redOperand, a, b]

/-- The completion of a scalar multiplication depends on its result and the latched LOWCHK only (R126, R133). -/
theorem scalarMulEnd_alike {r r' : Nat} (result : r = r') (lowchk : s.pendLowchk = s'.pendLowchk) :
    (scalarMulEnd r s).fileR = (scalarMulEnd r' s').fileR ∧ (scalarMulEnd r s).err = (scalarMulEnd r' s').err := by
  simp [scalarMulEnd, result, lowchk]

/-- X25519 reads A and B (R64). -/
theorem x25519_alike (h : exec .x25519 s = .next t) (h' : exec .x25519 s' = .next t') (a : s.fileA = s'.fileA)
    (b : s.fileB = s'.fileB) (lowchk : s.pendLowchk = s'.pendLowchk) : t.fileR = t'.fileR ∧ t.err = t'.err := by
  obtain rfl := eq_of_exec_next h (exec_eq _ s)
  obtain rfl := eq_of_exec_next h' (exec_eq _ s')
  exact scalarMulEnd_alike (by rw [scalarOperand, scalarOperand, pointOperand, pointOperand, a, b]) lowchk

/-- X25519_BASE reads A (R64, R124). -/
theorem x25519Base_alike (h : exec .x25519Base s = .next t) (h' : exec .x25519Base s' = .next t')
    (a : s.fileA = s'.fileA) (lowchk : s.pendLowchk = s'.pendLowchk) : t.fileR = t'.fileR ∧ t.err = t'.err := by
  obtain rfl := eq_of_exec_next h (exec_eq _ s)
  obtain rfl := eq_of_exec_next h' (exec_eq _ s')
  exact scalarMulEnd_alike (by rw [scalarOperand, scalarOperand, a]) lowchk

/-- MD5_INIT reads no file (R140). -/
theorem md5Init_dig (h : exec .md5Init s = .next t) : t.dig = digOfChain md5Iv := by
  obtain rfl := eq_of_exec_next h (exec_eq _ s)
  rfl

/-- MD5_BLOCK reads DIG and BLK (R141, R152). -/
theorem md5Block_dig (h : exec .md5Block s = .next t) : t.dig = digOfChain (compress (chainOfDig s.dig) s.blk) := by
  obtain rfl := eq_of_exec_next h (exec_eq _ s)
  rfl

end

/-- Settles O11: the frames of the commands, and each command's result as a function of the files it reads. -/
theorem commandsReadAndWriteOnlyTheirFiles : Obligations.CommandsReadAndWriteOnlyTheirFiles := by
  refine ⟨fun i s t h => ⟨exec_keeps_operands h, exec_keeps_result h, exec_keeps_digest h⟩,
    fun i s s' t t' h h' => ⟨fileR_eq_of_field h h', ?_, ?_, ?_, ?_⟩⟩
  · rintro rfl
    exact x25519_alike h h'
  · rintro rfl
    exact x25519Base_alike h h'
  · rintro rfl
    rw [md5Init_dig h, md5Init_dig h']
  · rintro rfl dig blk
    rw [md5Block_dig h, md5Block_dig h', dig, blk]

end Machine
end Sys2Proof
end

section
/-! PROOFS. The decoder in numbers, and the decoder and the encoder against each other (spec/30_encoding.md R80-R83;
spec/20_memory.md R60). -/

namespace Sys2Proof

/-! ### The fields and the opcode map -/

theorem splitWord_opc_toNat (w : Word) : (splitWord w).opc.toNat = w.toNat % 16 := by
  simp [splitWord, BitVec.extractLsb'_toNat]

theorem splitWord_rsvClear_iff (w : Word) : (splitWord w).rsvClear = true ↔ w.toNat / 16 = 0 := by
  have hw := w.isLt
  rw [CmdFormat.rsvClear, beq_iff_eq, ← BitVec.toNat_inj, splitWord, BitVec.extractLsb'_toNat, BitVec.toNat_ofNat,
    Nat.shiftRight_eq_div_pow]
  omega

/-- Each command stands in the opcode map at its opcode and nowhere else (R82). -/
theorem opcodeMap_eq_some_iff (opc : BitVec 4) (i : Instr) :
    opcodeMap opc = some i ↔ opc.toNat = (opcodeOf i).toNat := by
  cases i <;> revert opc <;> decide

/-- The opcodes without a command (R83). -/
theorem opcodeMap_eq_none_iff (opc : BitVec 4) : opcodeMap opc = none ↔ opc.toNat = 0 ∨ 8 ≤ opc.toNat := by
  revert opc
  decide

/-- The opcodes with a command (R82). -/
theorem exists_opcodeOf_iff (opc : BitVec 4) :
    (∃ i, opc.toNat = (opcodeOf i).toNat) ↔ 1 ≤ opc.toNat ∧ opc.toNat ≤ 7 := by
  have none_iff := opcodeMap_eq_none_iff opc
  simp only [← opcodeMap_eq_some_iff]
  rw [← Option.ne_none_iff_exists', ne_eq, none_iff]
  omega

/-! ### The decoder's answers, each by the number of the word -/

/-- A command's word is its opcode, and nothing else is set in it (R80, R82). -/
theorem decode_eq_ok_iff (w : Word) (i : Instr) :
    decode w = .ok i ↔ w.toNat / 16 = 0 ∧ w.toNat % 16 = (opcodeOf i).toNat := by
  rw [← splitWord_rsvClear_iff, ← splitWord_opc_toNat, ← opcodeMap_eq_some_iff, decode]
  cases (splitWord w).rsvClear <;> cases opcodeMap (splitWord w).opc <;> simp

/-- A word with a reserved bit set is rejected for that, whatever its opcode (R83). -/
theorem decode_eq_reservedBitsSet_iff (w : Word) : decode w = .error .reservedBitsSet ↔ w.toNat / 16 ≠ 0 := by
  rw [ne_eq, ← splitWord_rsvClear_iff, decode]
  cases (splitWord w).rsvClear <;> cases opcodeMap (splitWord w).opc <;> simp

/-- A word with no reserved bit set is rejected for its opcode (R83). -/
theorem decode_eq_unknownOpcode_iff (w : Word) : decode w = .error .unknownOpcode ↔
    w.toNat / 16 = 0 ∧ (w.toNat % 16 = 0 ∨ 8 ≤ w.toNat % 16) := by
  rw [← splitWord_rsvClear_iff, ← splitWord_opc_toNat, ← opcodeMap_eq_none_iff, decode]
  cases (splitWord w).rsvClear <;> cases opcodeMap (splitWord w).opc <;> simp

/-! ### Decode and encode -/

theorem encode_toNat (i : Instr) : (encode i).toNat = (opcodeOf i).toNat := by
  cases i <;> rfl

/-- Exactly the encoded word of a command decodes to it (R82). -/
theorem decode_eq_ok_iff_eq_encode (w : Word) (i : Instr) : decode w = .ok i ↔ w = encode i := by
  have hopc := (opcodeOf i).isLt
  rw [decode_eq_ok_iff, ← BitVec.toNat_inj, encode_toNat]
  omega

theorem decode_encode (i : Instr) : decode (encode i) = .ok i :=
  (decode_eq_ok_iff_eq_encode _ i).mpr rfl

/-- The bytes of a word are those it was made of (R60). -/
theorem wordOfBytes_eq_iff (b0 b1 b2 b3 : Byte) (w : Word) : wordOfBytes b0 b1 b2 b3 = w ↔
    [b0, b1, b2, b3] = [byteOfWord w 0, byteOfWord w 1, byteOfWord w 2, byteOfWord w 3] := by
  constructor
  · rintro rfl
    have h0 := b0.isLt
    have h1 := b1.isLt
    have h2 := b2.isLt
    have h3 := b3.isLt
    simp only [List.cons.injEq, and_true, ← BitVec.toNat_inj, byteOfWord_toNat, wordOfBytes_toNat]
    omega
  · intro h
    injection h with h0 h
    injection h with h1 h
    injection h with h2 h
    injection h with h3
    rw [h0, h1, h2, h3, wordOfBytes_byteOfWord]

/-- Exactly the four bytes of a command's word decode to it: a list of another length decodes to nothing (R60, R81). -/
theorem decodeBytes_eq_ok_iff (bytes : List Byte) (i : Instr) : decodeBytes bytes = .ok i ↔ bytes = encodeBytes i := by
  unfold decodeBytes
  split
  next b0 b1 b2 b3 => rw [decode_eq_ok_iff_eq_encode, wordOfBytes_eq_iff, encodeBytes]
  next other =>
    simp only [reduceCtorEq, false_iff]
    exact other _ _ _ _

/-- The bytes a table word is laid out as decode as the word. -/
theorem decodeTableWord_eq_some_iff (w : Word) (i : Instr) :
    decodeTableWord 32 w.toNat = some i ↔ decode w = .ok i := by
  rw [decodeTableWord, layBytes_word, decodeBytes, wordOfBytes_byteOfWord]
  cases decode w <;> simp

/-- Settles O2: the word that decodes to a command is the one with its number, and bytes and table words stand for
words. -/
theorem decodeAndEncodeAgreeBothWays : Obligations.DecodeAndEncodeAgreeBothWays :=
  ⟨decode_eq_ok_iff_eq_encode, decodeBytes_eq_ok_iff,
    fun w i => (decodeTableWord_eq_some_iff w i).trans (decode_eq_ok_iff_eq_encode w i)⟩

/-- Settles O3: the decoder in numbers, and the opcodes that have a command. -/
theorem wordIsLegalIffReservedZeroAndOpcodeOneToSeven :
    Obligations.WordIsLegalIffReservedZeroAndOpcodeOneToSeven := by
  refine fun w => ⟨?_, fun i h => ((decode_eq_ok_iff w i).mp h).2.symm⟩
  simp only [decode_eq_ok_iff, exists_and_left]
  rw [← splitWord_opc_toNat, exists_opcodeOf_iff]

/-- Settles O1: the seven words are the encoded ones, and the decoder in numbers rejects the others. -/
theorem opcodeWordsDecodeToTheirCommands : Obligations.OpcodeWordsDecodeToTheirCommands := by
  refine ⟨⟨decode_encode .montMul, decode_encode .fieldRed, decode_encode .x25519, decode_encode .x25519Base,
    decode_encode .md5Init, decode_encode .md5Block, decode_encode .zeroize⟩,
    (decode_eq_unknownOpcode_iff _).mpr (by decide), fun n low high => ?_,
    fun w => (decode_eq_reservedBitsSet_iff w).mpr⟩
  rw [decode_eq_unknownOpcode_iff, BitVec.toNat_ofNat]
  omega

end Sys2Proof
end

section
/-! PROOFS. Every step keeps the result file below P (spec/30_encoding.md R87). -/

namespace Sys2Proof
namespace Machine

/-- Bit i of word j of a file is bit 32j + i of its number (R8). -/
theorem getLsbD_word_eq_testBit_val (f : Vector Word 8) {j i : Nat} (hj : j < 8) (hi : i < 32) :
    f[j].getLsbD i = (val f).testBit (32 * j + i) := by
  have word : f[j] = BitVec.ofNat 32 (val f >>> (32 * j)) := by
    have h := congrArg (fun g : Vector Word 8 => g[j]) (words8_val f)
    simpa [words8] using h.symm
  rw [word, BitVec.getLsbD_ofNat, Nat.testBit_shiftRight]
  simp [hi]

/-- P is below 2^255, so a canonical result's top bit is 0 (R87). -/
theorem getLsbD_fileR_of_resultCanonical {s : State} (h : ResultCanonical s) : s.fileR[7].getLsbD 31 = false := by
  rw [getLsbD_word_eq_testBit_val s.fileR (by decide) (by decide)]
  exact Nat.testBit_lt_two_pow (Nat.lt_trans h prime_lt)

/-- What R receives at a completion is a residue modulo P; the MD5 commands leave R alone (R87). -/
theorem resultCanonical_exec {i : Instr} {s t : State} (h : ResultCanonical s) (hexec : exec i s = .next t) :
    ResultCanonical t := by
  have field {r : Nat} (hr : r < Config.prime) : val (words8 r) < Config.prime := by rwa [val_words8_of_lt hr]
  have scalarMul (k u : Nat) : ResultCanonical (scalarMulEnd (ladder k u) s) := by
    have hr := ladder_lt k u
    rwa [← val_scalarMulResult s.pendLowchk hr] at hr
  obtain rfl := eq_of_exec_next hexec (exec_eq i s)
  cases i with
  | montMul => exact field (fmul_lt _ _)
  | fieldRed => exact field (Nat.mod_lt _ prime_pos)
  | x25519 => exact scalarMul _ _
  | x25519Base => exact scalarMul _ _
  | md5Init => exact h
  | md5Block => exact h
  | zeroize => exact resultCanonical_reset

/-- No transfer and no cycle less to go writes R (R32). -/
theorem resultCanonical_busCycle (bus : Option Transfer) {s : State} (h : ResultCanonical s) :
    ResultCanonical (busCycle bus s) := by
  rwa [ResultCanonical, busCycle_fileR]

/-- Settles O48: reset clears R, a completion writes a residue or nothing, and no transfer writes R. -/
theorem stepKeepsTheResultCanonical : Obligations.StepKeepsTheResultCanonical := by
  intro s t h hstep
  have canonical : ResultCanonical t := by
    rcases step_next_cases hstep with rfl | ⟨-, i, -, hexec⟩ | ⟨-, rfl⟩
    · exact resultCanonical_reset
    · exact resultCanonical_exec (resultCanonical_busCycle _ (s := popPins s) h) hexec
    · exact resultCanonical_busCycle _ (by rwa [ResultCanonical, tick_fileR])
  exact ⟨canonical, getLsbD_fileR_of_resultCanonical canonical⟩

end Machine
end Sys2Proof
end

section
/-! PROOFS. WAIT, the loop of polls (spec/30_encoding.md R89). -/

namespace Sys2Proof
namespace Machine

/-- A poll is answered as a read, whether or not it completes the command in flight (R54, R89). -/
theorem resp_of_runTransfer_poll {s t : State} (h : runTransfer pollPins s = .next t) :
    ∃ v, t.resp = some (readAnswer v) := by
  rw [runTransfer_eq] at h
  have read (u : State) : busCycle pollPins.bus u = respond (some (readAnswer (statusWord u))) u :=
    busTransfer_status u
  rcases clockEdge_cases pollPins s with ⟨reset, -⟩ | ⟨-, -, hedge⟩ | ⟨-, -, hedge⟩
  · exact nomatch reset
  · rw [hedge, read] at h
    cases pend : s.pendOp with
    | none => simp [complete, pend] at h
    | some i =>
      obtain ⟨u, hexec, -, -, resp⟩ := exec_idle_done i (respond (some (readAnswer (statusWord s))) s)
      have command : complete (respond (some (readAnswer (statusWord s))) s) = exec i _ := complete_of_pendOp pend
      obtain rfl := eq_of_exec_next (command ▸ h) hexec
      exact ⟨_, resp⟩
  · rw [hedge, read] at h
    obtain rfl := Host.Outcome.next.inj h
    exact ⟨_, rfl⟩

/-- A poll that read DONE = 1 gives the host the word it read. -/
theorem wordsRead_poll_of_done {s t : State} (h : runTransfer pollPins s = .next t) (done : lastReadDone t = true) :
    ∃ v : Word, wordsRead pollPins t = [v] ∧ v.getLsbD 1 = true ∧ t.resp = some (readAnswer v) := by
  obtain ⟨v, hv⟩ := resp_of_runTransfer_poll h
  have bit1 : v.getLsbD 1 = true := by simpa [lastReadDone, hv, readAnswer] using done
  refine ⟨v, ?_, bit1, hv⟩
  simp [wordsRead, pollPins, readPins, readTransfer, hv, readAnswer]

/-- Everything the first poll of a WAIT can do, however many polls remain: end it, leave it to the later polls, or stop
the program. -/
theorem runWait_succ_cases (s : State) :
    (∃ t, runTransfer pollPins s = .next t ∧ lastReadDone t = true ∧
      ∀ polls, runWait (polls + 1) s = .done (wordsRead pollPins t) t) ∨
    (∃ t, ∀ polls, runWait (polls + 1) s = runWait polls t) ∨
    (∃ f, ∀ polls, runWait (polls + 1) s = .fault f) ∨
    (∃ r, ∀ polls, runWait (polls + 1) s = .refused r) := by
  simp only [runWait]
  cases poll : runTransfer pollPins s with
  | next t =>
    cases done : lastReadDone t with
    | true => exact .inl ⟨t, rfl, done, fun _ => by simp [done]⟩
    | false => exact .inr (.inl ⟨t, fun _ => by simp [done]⟩)
  | fault f => exact .inr (.inr (.inl ⟨f, fun _ => rfl⟩))
  | refused r => exact .inr (.inr (.inr ⟨r, fun _ => rfl⟩))

/-- A WAIT that has ended did so on the word of its last poll, which had DONE = 1. -/
theorem runWait_done_word {polls : Nat} {s t : State} {values : List Word} (h : runWait polls s = .done values t) :
    ∃ v : Word, values = [v] ∧ v.getLsbD 1 = true ∧ t.resp = some (readAnswer v) := by
  induction polls generalizing s with
  | zero => exact nomatch h
  | succ polls ih =>
    rcases runWait_succ_cases s with ⟨u, poll, done, run⟩ | ⟨u, run⟩ | ⟨f, run⟩ | ⟨r, run⟩ <;> rw [run] at h
    · injection h with hvalues ht
      subst hvalues ht
      exact wordsRead_poll_of_done poll done
    · exact ih h
    · exact nomatch h
    · exact nomatch h

/-- The polls of a WAIT that waits have given the host no word. -/
theorem runWait_waiting_values {polls : Nat} {s t : State} {values : List Word}
    (h : runWait polls s = .waiting values t) : values = [] := by
  induction polls generalizing s with
  | zero =>
    injection h with hvalues
    exact hvalues.symm
  | succ polls ih =>
    rcases runWait_succ_cases s with ⟨u, -, -, run⟩ | ⟨u, run⟩ | ⟨f, run⟩ | ⟨r, run⟩ <;> rw [run] at h
    · exact nomatch h
    · exact ih h
    · exact nomatch h
    · exact nomatch h

/-- A WAIT that ends is not changed by polls it does not use. -/
theorem runWait_done_of_le {polls more : Nat} {s t : State} {values : List Word}
    (h : runWait polls s = .done values t) (hle : polls ≤ more) : runWait more s = .done values t := by
  induction polls generalizing s more with
  | zero => exact nomatch h
  | succ polls ih =>
    obtain ⟨more, rfl⟩ : ∃ n, more = n + 1 := ⟨more - 1, by omega⟩
    rcases runWait_succ_cases s with ⟨u, -, -, run⟩ | ⟨u, run⟩ | ⟨f, run⟩ | ⟨r, run⟩ <;> rw [run] at h ⊢
    · exact h
    · exact ih h (by omega)
    · exact h
    · exact h

/-- Settles O56: a WAIT ends on a word with DONE = 1; while it waits it is the program's outcome, and fewer polls
would not have ended it. -/
theorem waitEndsOnlyOnDone : Obligations.WaitEndsOnlyOnDone := by
  refine fun polls s => ⟨fun values t => runWait_done_word, fun values t waiting =>
    ⟨fun ops => ?_, runWait_waiting_values waiting, fun more v u ended => ?_⟩⟩
  · rw [runHost, runOp, waiting, HostOutcome.andThen]
  · by_contra notMore
    have endedToo := runWait_done_of_le ended (Nat.le_of_not_lt notMore)
    exact nomatch waiting.symm.trans endedToo

end Machine
end Sys2Proof
end

section
/-! PROOFS. The host's pseudo-operations, line by line on an idle block (spec/30_encoding.md R88, R89; spec/20_memory.md
R60). -/

namespace Sys2Proof
namespace Machine

/-! ### One line -/

/-- Every register but the reserved offsets has a name, which stands for its offset (R53, R88). -/
theorem exists_offset {reg : Reg} (named : reg ≠ .reserved) : ∃ off, reg.offset = some off := by
  cases reg
  case reserved => exact absurd rfl named
  all_goals exact ⟨_, rfl⟩

/-- `WR` while idle writes its register, and gives the host no word (R55, R88). -/
theorem runHost_hostWr (polls : Nat) {reg : Reg} (named : reg ≠ .reserved) (w : Word) {s : State}
    (idle : s.busy = false) :
    runHost polls (hostWr reg w) s = .done [] (respond (some writeAnswer) (writeReg reg w s)) := by
  obtain ⟨off, hoff⟩ := exists_offset named
  obtain ⟨stands, aligned⟩ := regAt_of_offset hoff
  simp only [hostWr, hoff]
  rw [runHost_write polls off w [] s idle, busTransfer_writeTransfer aligned stands, locked_of_idle idle]
  rfl

/-- `RD` while idle gives the host what its register holds, and changes nothing but the bus's answer (R54, R88). -/
theorem runHost_hostRd (polls : Nat) {reg : Reg} (named : reg ≠ .reserved) {s : State} (idle : s.busy = false) :
    runHost polls (hostRd reg) s = .done [readReg s reg] (respond (some (readAnswer (readReg s reg))) s) := by
  obtain ⟨off, hoff⟩ := exists_offset named
  obtain ⟨stands, aligned⟩ := regAt_of_offset hoff
  have read : runTransfer (readPins off) s = .next (respond (some (readAnswer (readReg s reg))) s) := by
    rw [readPins, runTransfer_of_idle _ s idle,
      busTransfer_read ((Transfer.legal_iff (readTransfer off)).mpr ⟨rfl, aligned⟩) rfl stands, locked_of_idle idle]
    rfl
  simp only [hostRd, hoff, runHost, runOp, runLine, read]
  rfl

/-- `CMD` while idle accepts its command (R89, R171). -/
theorem runHost_hostCmd (polls : Nat) (i : Instr) {s : State} (idle : s.busy = false) :
    runHost polls (hostCmd i) s = .done [] (respond (some writeAnswer) (accept i s)) := by
  rw [hostCmd, runHost_hostWr polls (by decide) (encode i) idle, writeReg, commandWrite, idle, decode_encode]
  rfl

/-! ### A file, word by word -/

/-- File A written whole. -/
def putA (f : Vector Word 8) (s : State) : State := { s with fileA := f }

/-- File B written whole. -/
def putB (f : Vector Word 8) (s : State) : State := { s with fileB := f }

/-- BLK written whole. -/
def putBlk (f : Vector Word 16) (s : State) : State := { s with blk := f }

/-- The file after the words `w j` are written to it at the places `js`, in order. -/
def setWords {n : Nat} (w : Fin n → Word) (js : List (Fin n)) (f : Vector Word n) : Vector Word n :=
  js.foldl (fun (g : Vector Word n) (j : Fin n) => g.set j (w j)) f

/-- The places written hold the new words, the others the old. -/
theorem setWords_getElem {n : Nat} (w : Fin n → Word) (js : List (Fin n)) (f : Vector Word n) (k : Fin n) :
    (setWords w js f)[k] = if k ∈ js then w k else f[k] := by
  induction js generalizing f with
  | nil => simp [setWords]
  | cons j js ih =>
    rw [setWords, List.foldl_cons, ← setWords, ih]
    by_cases later : k ∈ js
    · simp [later]
    · by_cases now : k = j
      · simp [now]
      · have place : j.val ≠ k.val := fun h => now (Fin.ext h.symm)
        simp [later, now, place]

/-- Every word written leaves nothing of the old file. -/
theorem setWords_finRange {n : Nat} (w : Fin n → Word) (f : Vector Word n) :
    setWords w (List.finRange n) f = Vector.ofFn w := by
  refine Vector.ext fun k hk => ?_
  have word := setWords_getElem w (List.finRange n) f ⟨k, hk⟩
  simpa using word

section

variable {n : Nat} {file : Fin n → Reg} {put : Vector Word n → State → State}
  (named : ∀ j, file j ≠ .reserved) (notCmd : ∀ j, file j ≠ .cmd)
  (write : ∀ j w f s, writeReg (file j) w (put f s) = put (f.set j w) s)
include named notCmd write

/-- Writes of words of a file while idle set them, one after another. -/
theorem runHost_writes (polls : Nat) (w : Fin n → Word) (js : List (Fin n)) (f : Vector Word n) {s : State}
    (idle : (put f s).busy = false) (r : Option BusResponse) :
    runHost polls (js.flatMap fun j => hostWr (file j) (w j)) (respond r (put f s)) =
      .done [] (respond (if js = [] then r else some writeAnswer)
        (put (setWords w js f) s)) := by
  induction js generalizing f r with
  | nil => rfl
  | cons j js ih =>
    have still : (put (f.set j (w j)) s).busy = false := by
      rw [← write, writeReg_busy (notCmd j), idle]
    rw [List.flatMap_cons, runHost_append, runHost_hostWr polls (named j) (w j) (s := respond r _) idle,
      HostOutcome.done_nil_andThen, writeReg_respond (notCmd j), respond_respond, write, ih _ still, ite_self]
    rfl

/-- Writes of every word of a file while idle leave the file with the words written. -/
theorem runHost_writeFile [NeZero n] (polls : Nat) (w : Fin n → Word) (f : Vector Word n) {s : State}
    (idle : s.busy = false) (same : put f s = s) :
    runHost polls ((List.finRange n).flatMap fun j => hostWr (file j) (w j)) s =
      .done [] (respond (some writeAnswer) (put (Vector.ofFn w) s)) := by
  have run := runHost_writes named notCmd write polls w (List.finRange n) f (same ▸ idle) s.resp
  rw [same] at run
  change runHost polls _ s = _ at run
  simpa [setWords_finRange, NeZero.ne n] using run

end

/-- Reads of words of a file while idle give the host the words in order (R54, R89). -/
theorem runHost_reads (polls : Nat) {n : Nat} {file : Fin n → Reg} (named : ∀ j, file j ≠ .reserved)
    (js : List (Fin n)) {s : State} (idle : s.busy = false) :
    ∃ r, runHost polls (js.flatMap fun j => hostRd (file j)) s =
      .done (js.map fun j => readReg s (file j)) (respond r s) := by
  induction js generalizing s with
  | nil => exact ⟨s.resp, rfl⟩
  | cons j js ih =>
    obtain ⟨r, rest⟩ := ih (s := respond (some (readAnswer (readReg s (file j)))) s) idle
    refine ⟨r, ?_⟩
    simp only [readReg_respond, respond_respond] at rest
    rw [List.flatMap_cons, runHost_append, runHost_hostRd polls (named j) idle, HostOutcome.andThen, rest]
    rfl

theorem map_finRange_getElem {n : Nat} (f : Vector Word n) : ((List.finRange n).map fun j => f[j]) = f.toList := by
  apply List.ext_getElem <;> simp

/-- Reads of every word of a file while idle give the host the file, and change nothing but the bus's answer (R89). -/
theorem runHost_readFile (polls : Nat) {n : Nat} {file : Fin n → Reg} (named : ∀ j, file j ≠ .reserved)
    {f : Vector Word n} {s : State} (idle : s.busy = false) (holds : ∀ j, readReg s (file j) = f[j]) :
    ∃ r, runHost polls ((List.finRange n).flatMap fun j => hostRd (file j)) s = .done f.toList (respond r s) := by
  obtain ⟨r, run⟩ := runHost_reads polls named (List.finRange n) idle
  simp only [holds, map_finRange_getElem] at run
  exact ⟨r, run⟩

/-! ### The pseudo-operations -/

/-- A list of as many words as a file has is the file that holds them. -/
theorem toList_ofFn_getD {n : Nat} {ws : List Word} (size : ws.length = n) :
    (Vector.ofFn fun j : Fin n => ws.getD j.val 0#32).toList = ws := by
  refine List.ext_getElem (by simp [size]) fun j _ inside => ?_
  simp [inside]

/-- Words of a byte string, laid in a file, hold the string (R60, R89). -/
theorem bytesOfWords_file {n : Nat} {bytes : List Byte} (size : bytes.length = 4 * n) :
    bytesOfWords (Vector.ofFn fun j : Fin n => (wordsOfBytes bytes).getD j.val 0#32).toList = bytes := by
  obtain ⟨words, same⟩ := bytesOfWords_wordsOfBytes n bytes size
  rw [toList_ofFn_getD words, same]

/-- WR256 while idle fills A, or B, with the string's words (R89). -/
theorem runHost_hostWr256 (polls : Nat) {bytes : List Byte} (size : bytes.length = 32) {s : State}
    (idle : s.busy = false) : ∃ f : Vector Word 8, bytesOfWords f.toList = bytes ∧
      runHost polls (hostWr256 .a bytes) s = .done [] (respond (some writeAnswer) (putA f s)) ∧
      runHost polls (hostWr256 .b bytes) s = .done [] (respond (some writeAnswer) (putB f s)) :=
  ⟨_, bytesOfWords_file size,
    runHost_writeFile (file := .a) (put := putA) nofun nofun (fun _ _ _ _ => rfl) polls _ s.fileA idle rfl,
    runHost_writeFile (file := .b) (put := putB) nofun nofun (fun _ _ _ _ => rfl) polls _ s.fileB idle rfl⟩

/-- WRBLK while idle fills BLK with the block's words (R89). -/
theorem runHost_hostWrBlk (polls : Nat) {bytes : List Byte} (size : bytes.length = 64) {s : State}
    (idle : s.busy = false) : ∃ f : Vector Word 16, bytesOfWords f.toList = bytes ∧
      runHost polls (hostWrBlk bytes) s = .done [] (respond (some writeAnswer) (putBlk f s)) :=
  ⟨_, bytesOfWords_file size,
    runHost_writeFile (file := .blk) (put := putBlk) nofun nofun (fun _ _ _ _ => rfl) polls _ s.blk idle rfl⟩

theorem bytes32_length (x : Nat) : (bytes32 x).length = 32 := by
  simp [bytes32, leBytes]

/-- A file that holds the 32 bytes of a number below 2^256 has the number as its value (R8). -/
theorem val_of_bytesOfWords_eq_bytes32 {f : Vector Word 8} {x : Nat} (h : bytesOfWords f.toList = bytes32 x)
    (hx : x < 2 ^ 256) : val f = x := by
  calc val f = le (bytesOfWords f.toList) := (le_bytesOfWords _).symm
    _ = le (bytesOfWords (words8 x).toList) := by rw [h, bytesOfWords_words8]
    _ = val (words8 x) := le_bytesOfWords _
    _ = x := by rw [val_words8, Nat.mod_eq_of_lt hx]

/-- RD256 while idle gives the host the words and the value of A, B or R (R89). -/
theorem runHost_hostRd256 (polls : Nat) {file : Fin 8 → Reg} {f : Vector Word 8} {s : State} (idle : s.busy = false)
    (which : (file = .a ∧ f = s.fileA) ∨ (file = .b ∧ f = s.fileB) ∨ (file = .r ∧ f = s.fileR)) :
    ∃ r, runHost polls (hostRd256 file) s = .done f.toList (respond r s) := by
  rcases which with ⟨rfl, rfl⟩ | ⟨rfl, rfl⟩ | ⟨rfl, rfl⟩
  · exact runHost_readFile polls (file := .a) nofun idle fun _ => rfl
  · exact runHost_readFile polls (file := .b) nofun idle fun _ => rfl
  · exact runHost_readFile polls (file := .r) nofun idle fun _ => rfl

/-- RDDIG while idle gives the host the words of DIG (R89, R148). -/
theorem runHost_hostRdDig (polls : Nat) {s : State} (idle : s.busy = false) :
    ∃ r, runHost polls hostRdDig s = .done s.dig.toList (respond r s) :=
  runHost_readFile polls (file := .dig) nofun idle fun _ => rfl

theorem valueRead_done (f : Vector Word 8) (s : State) : (HostOutcome.done f.toList s).valueRead = some (val f) :=
  congrArg some (le_bytesOfWords f.toList)

/-- Settles O55: each pseudo-operation's run, line by line; WRINT is WR256 of the integer's bytes. -/
theorem hostOperationsFollowTheirExpansions : Obligations.HostOperationsFollowTheirExpansions := by
  refine fun s polls idle => ⟨fun bytes size => runHost_hostWr256 polls size idle, fun x hx => ?_,
    fun bytes size => runHost_hostWrBlk polls size idle, fun file f which => ?_, ?_,
    fun i => runHost_hostCmd polls i idle⟩
  · obtain ⟨f, hbytes, runs⟩ := runHost_hostWr256 polls (bytes32_length x) idle
    exact ⟨f, val_of_bytesOfWords_eq_bytes32 hbytes hx, runs⟩
  · obtain ⟨r, run⟩ := runHost_hostRd256 polls idle which
    exact ⟨_, run, rfl, run ▸ valueRead_done f _⟩
  · obtain ⟨r, run⟩ := runHost_hostRdDig polls idle
    exact ⟨_, run, rfl, run ▸ rfl⟩

end Machine
end Sys2Proof
end

section
/-! PROOFS. The field commands MONT_MUL and FIELD_RED: what they write, and how they agree (spec/40_field.md R100, R101,
R105, R106). -/

namespace Sys2Proof
namespace Machine

/-! ### A residue in the result file -/

/-- P is below 2^255, so the top bit of a residue's last word is 0 (R87). -/
theorem getLsbD_words8_of_lt {r : Nat} (h : r < Config.prime) : (words8 r)[7].getLsbD 31 = false := by
  rw [getLsbD_word_eq_testBit_val (words8 r) (by decide) (by decide), val_words8_of_lt h]
  exact Nat.testBit_lt_two_pow (Nat.lt_trans h prime_lt)

/-- A command that ends by writing the residue of `x` completes, with `x` modulo P in R and a full frame (R87, R172). -/
theorem exec_writes_residue {i : Instr} {s : State} {x : Nat}
    (h : exec i s = .next (endCommand errNone (putR (words8 (x % Config.prime)) s))) : ∃ r : Vector Word 8,
    exec i s = .next { s with
      fileR := r, err := 0#4, busy := false, done := true, pendOp := none, cyclesLeft := 0, work := Working.zero } ∧
    val r = x % Config.prime ∧ r[7].getLsbD 31 = false :=
  have canonical : x % Config.prime < Config.prime := Nat.mod_lt x prime_pos
  ⟨_, h, val_words8_of_lt canonical, getLsbD_words8_of_lt canonical⟩

/-- Settles O12: MONT_MUL writes the residue of the product. -/
theorem montMulWritesTheProductModP : Obligations.MontMulWritesTheProductModP :=
  fun s => exec_writes_residue (exec_eq .montMul s)

/-- Settles O14: FIELD_RED writes the residue of the 512-bit operand. -/
theorem fieldRedWritesTheOperandModP : Obligations.FieldRedWritesTheOperandModP :=
  fun s => exec_writes_residue (exec_eq .fieldRed s)

/-! ### Operands that give the same residue -/

/-- The field product depends on its factors only modulo P (R101). -/
theorem fmul_congr {x x' y y' : Nat} (hx : x ≡ x' [MOD Config.prime]) (hy : y ≡ y' [MOD Config.prime]) :
    fmul x y = fmul x' y' :=
  hx.mul hy

theorem fmul_comm (x y : Nat) : fmul x y = fmul y x := by
  rw [fmul, fmul, Nat.mul_comm]

/-- Settles O13: MONT_MUL writes the field product, which depends on the residues of its factors and is commutative; a
completion keeps A and B. -/
theorem montMulDependsOnlyOnResiduesAndCommutes : Obligations.MontMulDependsOnlyOnResiduesAndCommutes := by
  intro s s' residues
  have product : fmul (mulOperandA s) (mulOperandB s) = fmul (mulOperandA s') (mulOperandB s') := by
    rcases residues with ⟨a, b⟩ | ⟨a, b⟩
    · exact fmul_congr a b
    · exact (fmul_congr a b).trans (fmul_comm _ _)
  exact ⟨_, _, exec_eq .montMul s, exec_eq .montMul s', congrArg words8 product, rfl, rfl⟩

/-- The exact product of two files fits 512 bits, so its two halves as FIELD_RED's operand are the product (R106). -/
theorem redOperand_of_product_halves {f g : Vector Word 8} {s : State}
    (low : s.fileA = words8 (val f * val g % 2 ^ 256)) (high : s.fileB = words8 (val f * val g / 2 ^ 256)) :
    redOperand s = val f * val g := by
  have fits : val f * val g / 2 ^ 256 < 2 ^ 256 :=
    Nat.div_lt_of_lt_mul (Nat.mul_lt_mul'' (val_lt f) (val_lt g))
  rw [redOperand, low, high, val_words8, val_words8, Nat.mod_mod, Nat.mod_eq_of_lt fits, Nat.mod_add_div]

/-- Settles O15: FIELD_RED's operand is the product that MONT_MUL reduces. -/
theorem fieldRedOfAProductAgreesWithMontMul : Obligations.FieldRedOfAProductAgreesWithMontMul := by
  intro s s' low high
  have residue : fmul (mulOperandA s) (mulOperandB s) = redOperand s' % Config.prime := by
    rw [redOperand_of_product_halves low high, fmul, mulOperandA, mulOperandB]
  exact ⟨_, _, exec_eq .montMul s, exec_eq .fieldRed s', congrArg words8 residue⟩

end Machine
end Sys2Proof
end

section
/-! PROOFS. The ladder: its field arithmetic in the ring of residues modulo P, one iteration, and the iterations in the
order they run (spec/41_x25519.md R122). -/

namespace Sys2Proof
namespace Machine

/-! ### Field operations as residue classes -/

@[simp] theorem natCast_fadd (x y : Nat) : (fadd x y : ZMod Config.prime) = x + y := by
  rw [fadd, ZMod.natCast_mod, Nat.cast_add]

@[simp] theorem natCast_fsub (x y : Nat) : (fsub x y : ZMod Config.prime) = x - y := by
  have h := congrArg (Int.cast : Int → ZMod Config.prime) (intCast_fsub x y)
  rwa [ZMod.intCast_mod, Int.cast_natCast, Int.cast_sub, Int.cast_natCast, Int.cast_natCast] at h

@[simp] theorem natCast_fmul (x y : Nat) : (fmul x y : ZMod Config.prime) = x * y := by
  rw [fmul, ZMod.natCast_mod, Nat.cast_mul]

/-! ### Points of the ladder -/

/-- A point in the ladder's projective coordinates (x : z), as residue classes. -/
abbrev Point : Type := ZMod Config.prime × ZMod Config.prime

/-- The point (x2 : z2) of the ladder's variables. -/
def LadderVars.lower (v : LadderVars) : Point := (v.x2, v.z2)

/-- The point (x3 : z3) of the ladder's variables. -/
def LadderVars.upper (v : LadderVars) : Point := (v.x3, v.z3)

/-- R122's formulas for x2 and z2: the double of a point. -/
def Point.double (p : Point) : Point :=
  let te := (p.1 + p.2) ^ 2 - (p.1 - p.2) ^ 2
  ((p.1 + p.2) ^ 2 * (p.1 - p.2) ^ 2, te * ((p.1 + p.2) ^ 2 + 121665 * te))

/-- R122's formulas for x3 and z3: the sum of two points whose difference is (u : 1). -/
def Point.diffAdd (u : ZMod Config.prime) (p q : Point) : Point :=
  let da := (q.1 - q.2) * (p.1 + p.2)
  let cb := (q.1 + q.2) * (p.1 - p.2)
  ((da + cb) ^ 2, u * (da - cb) ^ 2)

theorem Point.diffAdd_comm (u : ZMod Config.prime) (p q : Point) : Point.diffAdd u p q = Point.diffAdd u q p := by
  simp only [diffAdd, Prod.mk.injEq]
  constructor <;> ring

/-! ### One iteration -/

theorem ladderArith_lower (x1 : Nat) (v : LadderVars) : (ladderArith x1 v).lower = v.lower.double := by
  simp [ladderArith, LadderVars.lower, Point.double, Config.a24, pow_two]

theorem ladderArith_upper (x1 : Nat) (v : LadderVars) :
    (ladderArith x1 v).upper = Point.diffAdd x1 v.lower v.upper := by
  simp [ladderArith, LadderVars.lower, LadderVars.upper, Point.diffAdd, pow_two]

@[simp] theorem ladderStep_swap (x1 : Nat) (kt : Bool) (v : LadderVars) : (ladderStep x1 kt v).swap = kt := rfl

/-- The points that an iteration doubles and adds: exchanged if the swap bit and the scalar bit differ. -/
def LadderVars.selected (v : LadderVars) (kt : Bool) : LadderVars :=
  if v.swap = kt then v else cswapBoth true v

theorem cswapBoth_xor_swap (v : LadderVars) (kt : Bool) : cswapBoth (v.swap ^^ kt) v = v.selected kt := by
  rw [LadderVars.selected]
  cases v.swap <;> cases kt <;> rfl

theorem ladderStep_lower (x1 : Nat) (kt : Bool) (v : LadderVars) :
    (ladderStep x1 kt v).lower = (v.selected kt).lower.double := by
  rw [ladderStep, ladderArith_lower, cswapBoth_xor_swap]
  rfl

theorem ladderStep_upper (x1 : Nat) (kt : Bool) (v : LadderVars) :
    (ladderStep x1 kt v).upper = Point.diffAdd x1 (v.selected kt).lower (v.selected kt).upper := by
  rw [ladderStep, ladderArith_upper, cswapBoth_xor_swap]
  rfl

/-- Settles O21: the two points of an iteration, coordinate by coordinate, and the range of a field product. -/
theorem ladderIterationFollowsItsFormulas : Obligations.LadderIterationFollowsItsFormulas := by
  intro x1 kt v
  obtain ⟨x2, z2⟩ := Prod.mk.inj (ladderStep_lower x1 kt v)
  obtain ⟨x3, z3⟩ := Prod.mk.inj (ladderStep_upper x1 kt v)
  by_cases same : v.swap = kt
  all_goals
    simp only [LadderVars.selected, same, if_true, if_false] at x2 z2 x3 z3 ⊢
    exact ⟨x2, z2, x3, z3, fmul_lt _ _, fmul_lt _ _, fmul_lt _ _, fmul_lt _ _, rfl⟩

/-! ### The iterations, the first one first -/

/-- The ladder's variables after its first `n` iterations. -/
def ladderRun (k x1 : Nat) : Nat → LadderVars
  | 0 => ladderStart x1
  | n + 1 => ladderStep x1 (k.testBit (254 - n)) (ladderRun k x1 n)

/-- The iterations for t - 1 down to 0 are the ones that the first 255 - t leave to do. -/
theorem ladderLoop_ladderRun (k x1 : Nat) {t : Nat} (h : t ≤ 255) :
    ladderLoop k x1 t (ladderRun k x1 (255 - t)) = ladderRun k x1 255 := by
  induction t with
  | zero => rfl
  | succ t ih =>
    have next : ladderStep x1 (k.testBit t) (ladderRun k x1 (255 - (t + 1))) = ladderRun k x1 (255 - t) := by
      rw [show 255 - t = 255 - (t + 1) + 1 by omega, ladderRun, show 254 - (255 - (t + 1)) = t by omega]
    rw [ladderLoop, next, ih (by omega)]

/-- The ladder's result as a power: x2 times the inverse of z2, after the last exchange. -/
theorem ladder_eq_pow_mod (k u : Nat) : ladder k u =
    (cswapBoth (ladderRun k u 255).swap (ladderRun k u 255)).x2 *
      (cswapBoth (ladderRun k u 255).swap (ladderRun k u 255)).z2 ^ (Config.prime - 2) % Config.prime := by
  have run : ladderLoop k u 255 (ladderStart u) = ladderRun k u 255 := ladderLoop_ladderRun k u (Nat.le_refl 255)
  rw [ladder, ladderEnd, run, finv_eq_pow_mod, fmul_mod_right, fmul]

end Machine
end Sys2Proof
end

section
/-! PROOFS. Clamping and the decoding of a point, bit by bit (spec/41_x25519.md R121, R123). -/

namespace Sys2Proof
namespace Machine

/-- Clamping keeps bits 3 to 253, sets bit 254 and clears the others. The mask is 252 ones, three places up. -/
theorem testBit_clamp (v n : Nat) : (clamp v).testBit n =
    if n < 3 ∨ 255 ≤ n then false else if n = 254 then true else v.testBit n := by
  have mask : 2 ^ 256 - 1 - (2 ^ 255 + 7) = (2 ^ 252 - 1) <<< 3 := by decide
  rw [clamp, mask, Nat.testBit_or, Nat.testBit_and, Nat.testBit_shiftLeft, Nat.testBit_two_pow_sub_one,
    Nat.testBit_two_pow]
  by_cases outside : n < 3 ∨ 255 ≤ n
  · have masked : (decide (n ≥ 3) && decide (n - 3 < 252)) = false := by simp; omega
    have notTop : decide (254 = n) = false := decide_eq_false (by omega)
    rw [if_pos outside, masked, notTop, Bool.and_false, Bool.or_false]
  · have kept : (decide (n ≥ 3) && decide (n - 3 < 252)) = true := by simp; omega
    rw [if_neg outside, kept, Bool.and_true]
    by_cases top : n = 254
    · rw [if_pos top, decide_eq_true top.symm, Bool.or_true]
    · rw [if_neg top, decide_eq_false (Ne.symm top), Bool.or_false]

theorem clamp_lt (v : Nat) : clamp v < 2 ^ 255 :=
  Nat.lt_pow_two_of_testBit _ fun n high => by rw [testBit_clamp, if_pos (Or.inr high)]

theorem clamp_clamp (v : Nat) : clamp (clamp v) = clamp v := by
  apply Nat.eq_of_testBit_eq
  intro n
  simp only [testBit_clamp]
  split_ifs <;> rfl

/-- A number is a file's if each word has the number's bits (R8). -/
theorem eq_val_of_testBit {v : Nat} {f : Vector Word 8} (hv : v < 2 ^ 256)
    (h : ∀ j i (hj : j < 8), i < 32 → v.testBit (32 * j + i) = f[j].getLsbD i) : v = val f := by
  apply Nat.eq_of_testBit_eq
  intro n
  by_cases inside : n < 256
  · have place : 32 * (n / 32) + n % 32 = n := Nat.div_add_mod n 32
    have bit := h (n / 32) (n % 32) (by omega) (Nat.mod_lt n (by decide))
    rwa [getLsbD_word_eq_testBit_val f (by omega) (Nat.mod_lt n (by decide)), place] at bit
  · have past : 2 ^ 256 ≤ 2 ^ n := Nat.pow_le_pow_right (by decide) (by omega)
    rw [Nat.testBit_lt_two_pow (hv.trans_le past), Nat.testBit_lt_two_pow ((val_lt f).trans_le past)]

/-- The mask of word 0 (R121). -/
theorem getLsbD_and_lowMask (w : Word) {i : Nat} (h : i < 32) :
    (w &&& 0xFFFFFFF8#32).getLsbD i = if i < 3 then false else w.getLsbD i := by
  have mask : ∀ i : Fin 32, (0xFFFFFFF8#32).getLsbD i = decide (3 ≤ i.val) := by decide
  rw [BitVec.getLsbD_and, mask ⟨i, h⟩]
  split <;> simp <;> omega

/-- The masks of word 7 (R121). -/
theorem getLsbD_and_or_highMask (w : Word) {i : Nat} (h : i < 32) :
    ((w &&& 0x7FFFFFFF#32) ||| 0x40000000#32).getLsbD i =
      if i = 31 then false else if i = 30 then true else w.getLsbD i := by
  have mask : ∀ i : Fin 32, (0x7FFFFFFF#32).getLsbD i = decide (i.val ≠ 31) := by decide
  have one : ∀ i : Fin 32, (0x40000000#32).getLsbD i = decide (i.val = 30) := by decide
  rw [BitVec.getLsbD_or, BitVec.getLsbD_and, mask ⟨i, h⟩, one ⟨i, h⟩]
  split_ifs <;> simp [*]

/-- Clamping in words: the masks of R121 on word 0 and word 7. -/
theorem clamp_val (f : Vector Word 8) : clamp (val f) =
    val ((f.set 0 (f[0] &&& 0xFFFFFFF8#32)).set 7 ((f[7] &&& 0x7FFFFFFF#32) ||| 0x40000000#32)) := by
  refine eq_val_of_testBit ((clamp_lt _).trans (by decide)) fun j i hj hi => ?_
  rw [testBit_clamp, ← getLsbD_word_eq_testBit_val f hj hi]
  by_cases first : j = 0
  · subst first
    rw [Vector.getElem_set_ne _ _ (by decide), Vector.getElem_set_self, getLsbD_and_lowMask _ hi,
      if_neg (show ¬ 32 * 0 + i = 254 by omega)]
    exact if_congr (by omega) rfl rfl
  · by_cases last : j = 7
    · subst last
      rw [Vector.getElem_set_self, getLsbD_and_or_highMask _ hi]
      exact if_congr (by omega) rfl (if_congr (by omega) rfl rfl)
    · rw [Vector.getElem_set_ne _ _ (Ne.symm last), Vector.getElem_set_ne _ _ (Ne.symm first)]
      rw [if_neg (by omega), if_neg (by omega)]

/-- Settles O19: the bits of a clamped number, the words of a clamped file, and the operands a command keeps. -/
theorem clampClearsAndSetsItsBits : Obligations.ClampClearsAndSetsItsBits := by
  refine ⟨fun v hv n => ?_, fun v _ => clamp_clamp v, clamp_val, fun i s t hi h => ?_⟩
  · rw [testBit_clamp]
    by_cases past : 256 ≤ n
    · have high : v.testBit n = false :=
        Nat.testBit_lt_two_pow (hv.trans_le (Nat.pow_le_pow_right (by decide) past))
      rw [if_pos (by omega), if_neg (by omega), if_neg (by omega), high]
    · exact if_congr (by omega) rfl rfl
  · refine (exec_keeps_operands h ?_).1
    rcases hi with rfl | rfl <;> decide

/-! ### Points -/

theorem decodeU_add_two_pow (v : Nat) : decodeU (v + 2 ^ 255) = decodeU v := by
  rw [decodeU, Nat.add_mod_right, decodeU]

theorem decodeU_of_lt {v : Nat} (h : v < Config.prime) : decodeU v = v := by
  rw [decodeU, Nat.mod_eq_of_lt (h.trans prime_lt), Nat.mod_eq_of_lt h]

/-- Below 2^255, at most one P can be added to a number: 2^255 is less than 2P. -/
theorem decodeU_add_prime {v : Nat} (h : v + Config.prime < 2 ^ 255) : decodeU (v + Config.prime) = v := by
  have twice : 2 ^ 255 < Config.prime + Config.prime := by decide
  rw [decodeU, Nat.mod_eq_of_lt h, Nat.add_mod_right, Nat.mod_eq_of_lt (by omega)]

theorem getLsbD_xor_topBit (w : Word) {i : Nat} (h : i < 31) : (w ^^^ 0x80000000#32).getLsbD i = w.getLsbD i := by
  have others : ∀ i : Fin 31, (0x80000000#32).getLsbD i = false := by decide
  rw [BitVec.getLsbD_xor, others ⟨i, h⟩, Bool.xor_false]

/-- Bit 255 of a file's number is the top bit of word 7, and decoding ignores it (R123). -/
theorem decodeU_val_of_topBit {f g : Vector Word 8} (words : ∀ j : Fin 8, j.val ≠ 7 → g[j] = f[j])
    (top : g[7] = f[7] ^^^ 0x80000000#32) : decodeU (val g) = decodeU (val f) := by
  have low : val g % 2 ^ 255 = val f % 2 ^ 255 := by
    apply Nat.eq_of_testBit_eq
    intro n
    rw [Nat.testBit_mod_two_pow, Nat.testBit_mod_two_pow]
    by_cases inside : n < 255
    · have place : 32 * (n / 32) + n % 32 = n := Nat.div_add_mod n 32
      have hj : n / 32 < 8 := by omega
      have hi : n % 32 < 32 := Nat.mod_lt n (by decide)
      have bit : g[n / 32].getLsbD (n % 32) = f[n / 32].getLsbD (n % 32) := by
        by_cases last : n / 32 = 7
        · simp only [last, top]
          exact getLsbD_xor_topBit _ (by omega)
        · exact congrArg (BitVec.getLsbD · (n % 32)) (words ⟨n / 32, hj⟩ last)
      rw [getLsbD_word_eq_testBit_val g hj hi, getLsbD_word_eq_testBit_val f hj hi, place] at bit
      rw [bit]
    · simp [inside]
  rw [decodeU, low, decodeU]

/-- Settles O20: decoding in numbers, and two files B that decode to the same point give the same R and ERR. -/
theorem pointDecodingIgnoresBit255AndReduces : Obligations.PointDecodingIgnoresBit255AndReduces := by
  refine ⟨fun v _ => decodeU_add_two_pow v, fun v => decodeU_add_prime, fun v => decodeU_of_lt,
    fun s s' t t' a lowchk words top h h' => ?_⟩
  obtain rfl := eq_of_exec_next h (exec_eq _ s)
  obtain rfl := eq_of_exec_next h' (exec_eq _ s')
  refine scalarMulEnd_alike ?_ lowchk
  rw [scalarOperand, scalarOperand, pointOperand, pointOperand, a, decodeU_val_of_topBit words top]

end Machine
end Sys2Proof
end

section
/-! PROOFS. The commands X25519 and X25519_BASE: the result, the low-order check and the frame (spec/41_x25519.md R120,
R124, R126). -/

namespace Sys2Proof
namespace Machine

/-- A command that ends as a scalar multiplication does writes the result with a full frame; ERR is the low-order
check's (R126, R172). -/
theorem exec_writes_scalarMul {i : Instr} {s : State} {x : Nat} (canonical : x < Config.prime)
    (h : exec i s = .next (scalarMulEnd x s)) : ∃ (r : Vector Word 8) (e : BitVec 4),
    exec i s = .next { s with
      fileR := r, err := e, busy := false, done := true, pendOp := none, cyclesLeft := 0, work := Working.zero } ∧
    val r = x ∧ val r < 2 ^ 255 - 19 ∧
    (s.pendLowchk = true ∧ val r = 0 → e = 2#4) ∧ (s.pendLowchk = false ∨ val r ≠ 0 → e = 0#4) := by
  refine ⟨scalarMulResult s.pendLowchk x, scalarMulErr s.pendLowchk x, h, ?_⟩
  rw [val_scalarMulResult s.pendLowchk canonical]
  refine ⟨rfl, canonical, fun ⟨latched, zero⟩ => ?_, fun accepted => ?_⟩
  · rw [scalarMulErr, latched, zero]
    rfl
  · refine if_neg fun rejected => ?_
    obtain ⟨latched, zero⟩ := (Bool.and_eq_true _ _).mp rejected
    rcases accepted with unlatched | nonzero
    · exact absurd latched (by rw [unlatched]; decide)
    · exact nonzero (beq_iff_eq.mp zero)

/-- Settles O17: both commands end as a scalar multiplication does, with the ladder's result. -/
theorem scalarMultiplicationResultAndLowOrderCheck : Obligations.ScalarMultiplicationResultAndLowOrderCheck :=
  fun s => ⟨exec_writes_scalarMul (ladder_lt _ _) (exec_eq .x25519 s),
    exec_writes_scalarMul (ladder_lt _ _) (exec_eq .x25519Base s)⟩

/-- Settles O18: the number 9 in B decodes to the base point, and the completion looks at B no more. -/
theorem x25519BaseIsX25519WithBaseNine : Obligations.X25519BaseIsX25519WithBaseNine := by
  intro s t h
  have nine : pointOperand { s with fileB := words8 9 } = Config.uBase := by
    rw [pointOperand, val_words8_of_lt (by decide), decodeU_of_lt (by decide), Config.uBase]
  obtain rfl := eq_of_exec_next h (exec_eq _ _)
  simp only [nine]
  rfl

/-- Settles O54: the run is `ladderRun`, each iteration O21's, the bits those of the clamped scalar. -/
theorem scalarMultiplicationRunsTheWholeLadder : Obligations.ScalarMultiplicationRunsTheWholeLadder := by
  intro s i u command
  have completes : exec i s = .next (scalarMulEnd (ladder (clamp (val s.fileA)) u) s) := by
    rcases command with ⟨rfl, rfl⟩ | ⟨rfl, rfl⟩
    · exact exec_eq .x25519 s
    · exact exec_eq .x25519Base s
  refine ⟨ladderRun (clamp (val s.fileA)) u, _, completes, rfl, fun n hn => ?_, ?_⟩
  · have bit : (clamp (val s.fileA)).testBit (254 - n) =
        if 251 < n then false else if n = 0 then true else (val s.fileA).testBit (254 - n) := by
      rw [testBit_clamp]
      exact if_congr (by omega) rfl (if_congr (by omega) rfl rfl)
    rw [← bit]
    obtain ⟨x2, z2, x3, z3, x2_lt, z2_lt, x3_lt, z3_lt, swap⟩ := ladderIterationFollowsItsFormulas u
      ((clamp (val s.fileA)).testBit (254 - n)) (ladderRun (clamp (val s.fileA)) u n)
    exact ⟨swap, x2, z2, x3, z3, x2_lt, z2_lt, x3_lt, z3_lt⟩
  · rw [scalarMulEnd, endCommand_fileR, putR_fileR, val_scalarMulResult _ (ladder_lt _ _), ladder_eq_pow_mod]
    cases (ladderRun (clamp (val s.fileA)) u 255).swap <;> rfl

end Machine
end Sys2Proof
end

section
/-! PROOFS. Points of low order: the ladder gives 0 for every scalar whose two low bits are clear (spec/41_x25519.md R120,
R128). The ring of residues modulo P needs no inverses here, and P need not be prime: each point of low order is known
by a linear equation of its coordinates, and the iteration's formulas keep such equations. -/

namespace Sys2Proof
namespace Machine

/-! ### Invariants of the two points -/

/-- A relation of the points (x2 : z2) and (x3 : z3) that the ladder for the point u keeps, and from which doubling gives
a point with a zero coordinate. -/
structure LadderInvariant (u : ZMod Config.prime) (I : Point → Point → Prop) : Prop where
  start : I (1, 0) (u, 1)
  step : ∀ {p q}, I p q → I p.double (Point.diffAdd u p q)
  exchangedStep : ∀ {p q}, I p q → I q.double (Point.diffAdd u p q)
  double : ∀ {p q}, I p q → p.double.1 * p.double.2 = 0

theorem LadderInvariant.holds {k u : Nat} {I : Point → Point → Prop} (h : LadderInvariant u I) (n : Nat) :
    I (ladderRun k u n).lower (ladderRun k u n).upper := by
  induction n with
  | zero => simpa [ladderRun, ladderStart, LadderVars.lower, LadderVars.upper] using h.start
  | succ n ih =>
    rw [ladderRun, ladderStep_lower, ladderStep_upper, LadderVars.selected]
    split
    · exact h.step ih
    · exact Point.diffAdd_comm _ _ _ ▸ h.exchangedStep ih

/-- A product with a positive power is 0 if the product with its base is. Stated for every exponent: with P - 2 in its
place, the kernel would evaluate the power by its recursion. -/
theorem mul_pow_mod_eq_zero {x z e : Nat} (pos : 0 < e) (h : (x : ZMod Config.prime) * z = 0) :
    x * z ^ e % Config.prime = 0 := by
  rw [← Nat.cast_mul, ZMod.natCast_eq_zero_iff] at h
  rw [← mul_pow_sub_one pos.ne' z, ← mul_assoc]
  exact Nat.mod_eq_zero_of_dvd (h.mul_right _)

/-- With the scalar's two low bits clear the last iteration exchanges nothing, before or after. -/
theorem LadderInvariant.ladder_eq_zero {k u : Nat} {I : Point → Point → Prop} (h : LadderInvariant u I)
    (bit0 : k.testBit 0 = false) (bit1 : k.testBit 1 = false) : ladder k u = 0 := by
  have last : ladderRun k u 255 = ladderStep u false (ladderRun k u 254) := by
    rw [← bit0]
    rfl
  have unswapped : (ladderRun k u 254).swap = false := bit1
  have lower : (ladderRun k u 255).lower = (ladderRun k u 254).lower.double := by
    rw [last, ladderStep_lower, LadderVars.selected, unswapped, if_pos rfl]
  have zero := h.double (h.holds (k := k) 254)
  rw [← lower] at zero
  rw [ladder_eq_pow_mod, last, ladderStep_swap, ← last, cswapBoth]
  exact mul_pow_mod_eq_zero (by decide) zero

/-! ### Points of order 2 and 4 -/

/-- (1 : 0) and (0 : 1) double to a point with z = 0. -/
theorem Point.double_snd_of_mul_eq_zero {p : Point} (h : p.1 * p.2 = 0) : p.double.2 = 0 := by
  simp only [double]
  linear_combination 4 * ((p.1 + p.2) ^ 2 + 121665 * ((p.1 + p.2) ^ 2 - (p.1 - p.2) ^ 2)) * h

theorem Point.double_mul_of_mul_eq_zero {p : Point} (h : p.1 * p.2 = 0) : p.double.1 * p.double.2 = 0 := by
  rw [double_snd_of_mul_eq_zero h, mul_zero]

/-- The point (0 : 1) has order 2. -/
theorem ladderInvariant_zero : LadderInvariant 0 fun p q => p.1 * p.2 = 0 ∧ q.1 * q.2 = 0 where
  start := ⟨mul_zero 1, zero_mul 1⟩
  step h := ⟨Point.double_mul_of_mul_eq_zero h.1, by simp [Point.diffAdd]⟩
  exchangedStep h := ⟨Point.double_mul_of_mul_eq_zero h.2, by simp [Point.diffAdd]⟩
  double h := Point.double_mul_of_mul_eq_zero h.1

/-- The point has the affine coordinate c: x = cz. -/
def Point.OnLine (c : ZMod Config.prime) (p : Point) : Prop := p.1 = c * p.2

/-- The points with u = 1 and u = -1 double to (0 : 1). -/
theorem Point.double_fst_of_sq_eq_one {c : ZMod Config.prime} (hc : c ^ 2 = 1) {p : Point} (h : p.OnLine c) :
    p.double.1 = 0 := by
  simp only [double, show p.1 = c * p.2 from h]
  linear_combination (c ^ 2 - 1) * p.2 ^ 4 * hc

/-- A point with u = 1 or u = -1 has order 4: its multiples are itself, its negative and the points of order 2. -/
theorem ladderInvariant_of_sq_eq_one {u : ZMod Config.prime} (hu : u ^ 2 = 1) :
    LadderInvariant u fun p q => p.1 * p.2 = 0 ∧ q.OnLine u := by
  have sum (p q : Point) (h : q.OnLine u) : (Point.diffAdd u p q).OnLine u := by
    simp only [Point.OnLine, Point.diffAdd, show q.1 = u * q.2 from h]
    linear_combination
      (4 * q.2 ^ 2 * (p.1 ^ 2 - p.2 ^ 2) - (((u * q.2 - q.2) * (p.1 + p.2) - (u * q.2 + q.2) * (p.1 - p.2)) ^ 2)) * hu
  exact {
    start := ⟨mul_zero 1, (mul_one u).symm⟩
    step := fun h => ⟨Point.double_mul_of_mul_eq_zero h.1, sum _ _ h.2⟩
    exchangedStep := fun h => ⟨by rw [Point.double_fst_of_sq_eq_one hu h.2, zero_mul], sum _ _ h.2⟩
    double := fun h => Point.double_mul_of_mul_eq_zero h.1 }

/-! ### Points of order 8 -/

/-- `c` is the coordinate of a point whose double is (1 : 1). -/
def DoublesToOne (c : ZMod Config.prime) : Prop := (c ^ 2 - 1) ^ 2 = 4 * c * ((c + 1) ^ 2 + 121665 * (4 * c))

theorem Point.double_onLine_one {c : ZMod Config.prime} (hc : DoublesToOne c) {p : Point} (h : p.OnLine c) :
    p.double.OnLine 1 := by
  rw [DoublesToOne] at hc
  simp only [OnLine, double, show p.1 = c * p.2 from h]
  linear_combination p.2 ^ 4 * hc

section

variable {u u' : ZMod Config.prime} {p q : Point}

theorem Point.diffAdd_onLine_of_snd_eq_zero (hp : p.2 = 0) (hq : q.OnLine u) : (diffAdd u p q).OnLine u := by
  simp only [OnLine, diffAdd, hp, show q.1 = u * q.2 from hq]
  ring

theorem Point.diffAdd_onLine_of_onLine_one (inverse : u' * u = 1) (hp : p.OnLine 1) : (diffAdd u p q).OnLine u' := by
  simp only [OnLine, diffAdd, show p.1 = 1 * p.2 from hp]
  linear_combination -((q.1 - q.2) * (1 * p.2 + p.2)) ^ 2 * inverse

theorem Point.diffAdd_onLine_of_fst_eq_zero (inverse : u' * u = 1) (hp : p.1 = 0) (hq : q.OnLine u') :
    (diffAdd u p q).OnLine u := by
  simp only [OnLine, diffAdd, hp, show q.1 = u' * q.2 from hq]
  linear_combination -4 * q.2 ^ 2 * p.2 ^ 2 * (1 + u' * u) * inverse

/-- The multiples of a point of order 8 with double (1 : 1), one after another: an even one, and an odd one with the
coordinate u or its inverse. -/
def OrderEightPair (u u' : ZMod Config.prime) (p q : Point) : Prop :=
  ((p.2 = 0 ∨ p.OnLine 1) ∧ q.OnLine u) ∨ ((p.1 = 0 ∨ p.OnLine 1) ∧ q.OnLine u')

theorem OrderEightPair.sum (inverse : u' * u = 1) (h : OrderEightPair u u' p q) :
    p.1 * p.2 = 0 ∧ (Point.diffAdd u p q).OnLine u ∨ p.OnLine 1 ∧ (Point.diffAdd u p q).OnLine u' := by
  rcases h with ⟨infinite | one, hq⟩ | ⟨zero | one, hq⟩
  · exact Or.inl ⟨by rw [infinite, mul_zero], Point.diffAdd_onLine_of_snd_eq_zero infinite hq⟩
  · exact Or.inr ⟨one, Point.diffAdd_onLine_of_onLine_one inverse one⟩
  · exact Or.inl ⟨by rw [zero, zero_mul], Point.diffAdd_onLine_of_fst_eq_zero inverse zero hq⟩
  · exact Or.inr ⟨one, Point.diffAdd_onLine_of_onLine_one inverse one⟩

end

/-- A point whose double is (1 : 1) has order 8. -/
theorem ladderInvariant_of_doublesToOne {u u' : ZMod Config.prime} (inverse : u' * u = 1) (hu : DoublesToOne u)
    (hu' : DoublesToOne u') : LadderInvariant u (OrderEightPair u u') where
  start := Or.inl ⟨Or.inl rfl, (mul_one u).symm⟩
  step h := by
    rcases h.sum inverse with ⟨zero, sum⟩ | ⟨one, sum⟩
    · exact Or.inl ⟨Or.inl (Point.double_snd_of_mul_eq_zero zero), sum⟩
    · exact Or.inr ⟨Or.inl (Point.double_fst_of_sq_eq_one (one_pow 2) one), sum⟩
  exchangedStep h := by
    have doubled := h.elim (fun ⟨_, hq⟩ => Point.double_onLine_one hu hq)
      (fun ⟨_, hq⟩ => Point.double_onLine_one hu' hq)
    rcases h.sum inverse with ⟨-, sum⟩ | ⟨-, sum⟩
    · exact Or.inl ⟨Or.inr doubled, sum⟩
    · exact Or.inr ⟨Or.inr doubled, sum⟩
  double h := by
    rcases h.sum inverse with ⟨zero, -⟩ | ⟨one, -⟩
    · exact Point.double_mul_of_mul_eq_zero zero
    · rw [Point.double_fst_of_sq_eq_one (one_pow 2) one, zero_mul]

/-! ### The listed inputs -/

/-- The listed point of order 8 (R128). -/
def orderEight : Nat := 0x00b8495f16056286fdb1329ceb8d09da6ac49ff1fae35616aeb8413b7c7aebe0

/-- The inverse of `orderEight` modulo P, the other coordinate of a point of order 8 on the curve. -/
def orderEightInverse : Nat := 0x57119fd0dd4e22d8868e1c58c45c44045bef839c55b1d0b1248c50a3bc959c5f

/-- `DoublesToOne` as an equation of residues that the kernel evaluates, without a subtraction. -/
theorem doublesToOne_of_mod_eq {c : Nat}
    (h : (c ^ 4 + 1) % Config.prime = (2 * c ^ 2 + 4 * c * ((c + 1) ^ 2 + 121665 * (4 * c))) % Config.prime) :
    DoublesToOne c := by
  have cast := (ZMod.natCast_eq_natCast_iff' _ _ _).mpr h
  push_cast at cast
  rw [DoublesToOne]
  linear_combination cast

theorem ladderInvariant_orderEight : LadderInvariant orderEight (OrderEightPair orderEight orderEightInverse) := by
  have inverse : ((orderEightInverse * orderEight : Nat) : ZMod Config.prime) = (1 : Nat) :=
    (ZMod.natCast_eq_natCast_iff' _ _ _).mpr (by decide)
  rw [Nat.cast_mul, Nat.cast_one] at inverse
  exact ladderInvariant_of_doublesToOne inverse (doublesToOne_of_mod_eq (by decide)) (doublesToOne_of_mod_eq (by decide))

/-- The low bits of a clamped scalar are clear, so each listed point gives 0 (R120, R128). -/
theorem ladder_clamp_eq_zero_of_listed (v : Nat) {u : Nat}
    (listed : u = 0 ∨ u = 1 ∨ u = Config.prime - 1 ∨ u = orderEight) : ladder (clamp v) u = 0 := by
  have low (n : Nat) (hn : n < 3) : (clamp v).testBit n = false := by rw [testBit_clamp, if_pos (Or.inl hn)]
  have zero {I : Point → Point → Prop} (h : LadderInvariant u I) : ladder (clamp v) u = 0 :=
    h.ladder_eq_zero (low 0 (by decide)) (low 1 (by decide))
  have orderFour (h : u ^ 2 % Config.prime = 1 % Config.prime) : (u : ZMod Config.prime) ^ 2 = 1 := by
    rw [← Nat.cast_pow, ← Nat.cast_one, ZMod.natCast_eq_natCast_iff', h]
  rcases listed with rfl | rfl | rfl | rfl
  · exact zero (Nat.cast_zero (R := ZMod Config.prime) ▸ ladderInvariant_zero)
  · exact zero (ladderInvariant_of_sq_eq_one (orderFour (by decide)))
  · exact zero (ladderInvariant_of_sq_eq_one (orderFour (by decide)))
  · exact zero ladderInvariant_orderEight

/-- Settles O22: the result is 0 for a listed point, and ERR is the low-order check's. -/
theorem lowOrderPointsGiveZeroForEveryScalar : Obligations.LowOrderPointsGiveZeroForEveryScalar := by
  intro s point
  have result : ladder (scalarOperand s) (pointOperand s) = 0 :=
    ladder_clamp_eq_zero_of_listed _ (point.imp_right (Or.imp_right Or.inl))
  have completes : exec .x25519 s = .next (scalarMulEnd 0 s) := result ▸ exec_eq .x25519 s
  obtain ⟨r, e, next, zero, -, rejected, accepted⟩ := exec_writes_scalarMul prime_pos completes
  refine ⟨_, next, zero, ?_⟩
  cases latched : s.pendLowchk with
  | true => exact rejected ⟨latched, zero⟩
  | false => exact accepted (Or.inl latched)

/-- Settles O23: each form of a listed point decodes to the point. -/
theorem listedLowOrderInputsGiveZero : Obligations.ListedLowOrderInputsGiveZero := by
  intro v u w _ listed form
  have canonical : u < Config.prime := by rcases listed with rfl | rfl | rfl | rfl <;> decide
  have decoded : decodeU w = u := by
    rcases form with rfl | rfl | ⟨rfl, fits⟩
    · exact decodeU_of_lt canonical
    · rw [decodeU_add_two_pow, decodeU_of_lt canonical]
    · exact decodeU_add_prime fits
  rw [decoded]
  exact ladder_clamp_eq_zero_of_listed v listed

end Machine
end Sys2Proof
end

section
/-! PROOFS. The MD5 commands and their constants: the initial value, the 64 steps of a block, and the padded message
(spec/42_md5.md R140-R147, R149, R150). -/

namespace Sys2Proof
namespace Machine

/-- Settles O24: a completion's form, with the initial value in DIG. -/
theorem md5InitWritesTheInitialValue : Obligations.Md5InitWritesTheInitialValue :=
  fun s => exec_eq .md5Init s

/-- Settles O26: both lists of constants are closed. -/
theorem md5AdditiveConstantsAreTheTable : Obligations.Md5AdditiveConstantsAreTheTable :=
  ⟨rfl, by decide⟩

/-! ### What a step uses, round by round -/

section

variable {i : Nat}

/-- Steps 0 to 15 use F, the words in order, and the first row of rotations (R143-R145). -/
theorem round_of_le_15 (last : i ≤ 15) :
    roundFun i = roundF ∧ messageIndex i = i ∧ rotateAmount i = [7, 12, 17, 22].getD (i % 4) 0 := by
  simp [funext_iff, roundFun, messageIndex, rotateAmount, last]

/-- Steps 16 to 31 use G, every fifth word, and the second row of rotations (R143-R145). -/
theorem round_of_le_31 (first : 16 ≤ i) (last : i ≤ 31) :
    roundFun i = roundG ∧ messageIndex i = (5 * i + 1) % 16 ∧ rotateAmount i = [5, 9, 14, 20].getD (i % 4) 0 := by
  have after : ¬ i ≤ 15 := by omega
  simp [funext_iff, roundFun, messageIndex, rotateAmount, after, last]

/-- Steps 32 to 47 use H, every third word, and the third row of rotations (R143-R145). -/
theorem round_of_le_47 (first : 32 ≤ i) (last : i ≤ 47) :
    roundFun i = roundH ∧ messageIndex i = (3 * i + 5) % 16 ∧ rotateAmount i = [4, 11, 16, 23].getD (i % 4) 0 := by
  have after : ¬ i ≤ 15 := by omega
  have after' : ¬ i ≤ 31 := by omega
  simp [funext_iff, roundFun, messageIndex, rotateAmount, after, after', last]

/-- Steps from 48 use I, every seventh word, and the last row of rotations (R143-R145). -/
theorem round_of_48_le (first : 48 ≤ i) :
    roundFun i = roundI ∧ messageIndex i = 7 * i % 16 ∧ rotateAmount i = [6, 10, 15, 21].getD (i % 4) 0 := by
  have after : ¬ i ≤ 15 := by omega
  have after' : ¬ i ≤ 31 := by omega
  have after'' : ¬ i ≤ 47 := by omega
  simp [funext_iff, roundFun, messageIndex, rotateAmount, after, after', after'']

end

theorem messageIndex_lt : ∀ i < 64, messageIndex i < 16 := by decide

theorem rotateAmount_lt : ∀ i < 64, rotateAmount i < 32 := by decide

/-- The spec's rotation is the rotation of a bit vector, for an amount below the width (R9). -/
theorem rotl_eq_rotateLeft (x : Word) {r : Nat} (h : r < 32) : rotl x r = x.rotateLeft r := by
  rw [BitVec.rotateLeft, BitVec.rotateLeftAux, Nat.mod_eq_of_lt h, rotl]

/-- What a step of a round uses: the round's function, word and rotation (R147). -/
theorem step_uses {i index amount : Nat} {f : Word → Word → Word → Word} (inside : i < 64)
    (round : roundFun i = f ∧ messageIndex i = index ∧ rotateAmount i = amount) (x y z : Word) :
    roundFun i x y z = f x y z ∧ (Fin.ofNat 16 (messageIndex i)).val = index ∧ rotateAmount i = amount := by
  obtain ⟨rfl, rfl, rfl⟩ := round
  exact ⟨rfl, Nat.mod_eq_of_lt (messageIndex_lt i inside), rfl⟩

/-- The round registers after `n` steps of MD5_BLOCK (R147). -/
def roundRun (s : State) (n : Nat) : Chain := md5Rounds s.blk n (chainOfDig s.dig)

/-- Settles O25: the run is `roundRun`, and each of its steps uses what its round says. -/
theorem md5BlockCompressesInSixtyFourSteps : Obligations.Md5BlockCompressesInSixtyFourSteps := by
  refine fun s => ⟨roundRun s, _, exec_eq .md5Block s, rfl, fun i inside => ⟨rfl, rfl, rfl,
    roundFun i (roundRun s i).b (roundRun s i).c (roundRun s i).d, Fin.ofNat 16 (messageIndex i), rotateAmount i,
    fun last => step_uses inside (round_of_le_15 last) _ _ _,
    fun first last => step_uses inside (round_of_le_31 first last) _ _ _,
    fun first last => step_uses inside (round_of_le_47 first last) _ _ _,
    fun first => step_uses inside (round_of_48_le first) _ _ _, ?_⟩, rfl, rfl, rfl, rfl⟩
  rw [← rotl_eq_rotateLeft _ (rotateAmount_lt i inside)]
  rfl

/-! ### The padded message -/

@[simp] theorem leBytes_length (n x : Nat) : (leBytes n x).length = n := by
  simp [leBytes]

/-- The value of a number's first bytes is the number modulo their range (R8). -/
theorem le_leBytes (n x : Nat) : le (leBytes n x) = x % 2 ^ (8 * n) := by
  induction n generalizing x with
  | zero => simp [leBytes, le, Nat.mod_one]
  | succ n ih =>
    rw [leBytes_succ, le, ih, BitVec.toNat_ofNat, Nat.mul_succ, Nat.add_comm (8 * n), pow_add, Nat.mod_mul]

theorem padZeros_spec (len : Nat) : (len + 1 + padZeros len) % 64 = 56 := by
  unfold padZeros
  omega

theorem padZeros_le {len y : Nat} (h : (len + 1 + y) % 64 = 56) : padZeros len ≤ y := by
  unfold padZeros
  omega

/-- The padded message fills the blocks that R149 counts. -/
theorem md5Pad_length (m : List Byte) : (md5Pad m).length = 64 * ((m.length + 8) / 64 + 1) := by
  simp only [md5Pad, List.length_append, List.length_singleton, List.length_replicate, leBytes_length, padZeros]
  omega

/-- Settles O27: the number of zero bytes is `padZeros`, and the last eight bytes hold the bit length. -/
theorem md5PaddingFillsWholeBlocks : Obligations.Md5PaddingFillsWholeBlocks := by
  refine fun m => ⟨padZeros m.length, leBytes 8 (8 * m.length % 2 ^ 64), rfl, padZeros_spec _, fun _ => padZeros_le,
    leBytes_length _ _, ?_, ?_, ?_⟩
  · rw [le_leBytes, Nat.mod_mod]
  · rw [md5Pad_length, Nat.mul_mod_right]
  · rw [md5Pad_length, Nat.mul_div_cancel_left _ (by decide)]

end Machine
end Sys2Proof
end

section
/-! PROOFS. The host's sequence for MD5: each command waited for, and the chaining value after it (spec/42_md5.md R151;
spec/30_encoding.md R89). -/

namespace Sys2Proof
namespace Machine

/-- A program that reaches its end, and then the next one that does. -/
theorem runHost_append_of_done {polls : Nat} {ops ops' : List HostOp} {s t u : State} {values more : List Word}
    (h : runHost polls ops s = .done values t) (h' : runHost polls ops' t = .done more u) :
    runHost polls (ops ++ ops') s = .done (values ++ more) u := by
  rw [runHost_append, h, HostOutcome.andThen, h']

/-- A command of an idle block, waited for, ends in the state its completion leaves; the completion finds the state that
accepted the command, but for the counter, the working registers and the bus's answer (R89, R171, R172). -/
theorem runHost_hostCmd_wait {polls : Nat} {i : Instr} (enough : Config.latency i < polls) {s : State}
    (idle : s.busy = false) :
    ∃ left work resp t, exec i { accept i s with cyclesLeft := left, work := work, resp := resp } = .next t ∧
      runHost polls (hostCmd i ++ [.wait]) s =
        .done [statusWord t] (respond (some (readAnswer (statusWord t))) t) := by
  obtain ⟨n, rfl⟩ : ∃ n, polls = n + 2 := ⟨polls - 2, by unfold Config.latency at enough; omega⟩
  obtain ⟨left, work, resp, t, completes, waits⟩ := runWait_of_busy n (respond (some writeAnswer) (accept i s)) i
    rfl rfl rfl (Nat.le_of_lt_succ enough)
  refine ⟨left, work, resp, t, completes, runHost_append_of_done (runHost_hostCmd _ i idle) ?_⟩
  rw [runHost, runOp, waits]
  rfl

@[simp] theorem putBlk_busy (f : Vector Word 16) (s : State) : (putBlk f s).busy = s.busy := rfl
@[simp] theorem putBlk_dig (f : Vector Word 16) (s : State) : (putBlk f s).dig = s.dig := rfl
@[simp] theorem putBlk_blk (f : Vector Word 16) (s : State) : (putBlk f s).blk = f := rfl

/-- WRBLK while idle writes the block that the compression takes (R89, R151). -/
theorem runHost_hostWrBlk_blockOfBytes (polls : Nat) (bytes : List Byte) {s : State} (idle : s.busy = false) :
    runHost polls (hostWrBlk bytes) s = .done [] (respond (some writeAnswer) (putBlk (blockOfBytes bytes) s)) :=
  runHost_writeFile (file := .blk) (put := putBlk) nofun nofun (fun _ _ _ _ => rfl) polls _ s.blk idle rfl

@[simp] theorem chainOfDig_digOfChain (v : Chain) : chainOfDig (digOfChain v) = v := rfl

/-- The program ends, and leaves the block idle with the chaining value `v` in DIG. -/
def EndsWithChain (polls : Nat) (ops : List HostOp) (s : State) (v : Chain) : Prop :=
  ∃ values t, runHost polls ops s = .done values t ∧ t.busy = false ∧ chainOfDig t.dig = v

section

variable {polls : Nat} {ops ops' : List HostOp} {s : State} {v v' : Chain}

theorem EndsWithChain.of_done {t : State} {values : List Word} (h : runHost polls ops s = .done values t)
    (h' : EndsWithChain polls ops' t v) : EndsWithChain polls (ops ++ ops') s v := by
  obtain ⟨more, u, run, idle, chain⟩ := h'
  exact ⟨_, u, runHost_append_of_done h run, idle, chain⟩

theorem EndsWithChain.append (h : EndsWithChain polls ops s v)
    (h' : ∀ t : State, t.busy = false → chainOfDig t.dig = v → EndsWithChain polls ops' t v') :
    EndsWithChain polls (ops ++ ops') s v' := by
  obtain ⟨values, t, run, idle, chain⟩ := h
  exact .of_done run (h' t idle chain)

end

/-- A command waited for leaves the block idle, with the chaining value its completion writes. -/
theorem endsWithChain_hostCmd_wait {polls : Nat} {i : Instr} (enough : Config.latency i < polls) {s : State}
    (idle : s.busy = false) {v : Chain}
    (writes : ∀ u t : State, exec i u = .next t → u.dig = s.dig → u.blk = s.blk → chainOfDig t.dig = v) :
    EndsWithChain polls (hostCmd i ++ [.wait]) s v := by
  obtain ⟨left, work, resp, t, completes, run⟩ := runHost_hostCmd_wait enough idle
  obtain ⟨t', completes', idle', -, -⟩ := exec_idle_done i { accept i s with cyclesLeft := left, work, resp }
  obtain rfl := eq_of_exec_next completes completes'
  exact ⟨_, _, run, idle', writes _ t completes rfl rfl⟩

/-- MD5_INIT waited for leaves the initial value (R140). -/
theorem endsWithChain_md5Init {polls : Nat} (enough : Config.latency .md5Init < polls) {s : State}
    (idle : s.busy = false) : EndsWithChain polls (hostCmd .md5Init ++ [.wait]) s md5Iv :=
  endsWithChain_hostCmd_wait enough idle fun u t completes _ _ => by
    rw [md5Init_dig completes, chainOfDig_digOfChain]

/-- A block written, and MD5_BLOCK waited for, leave the block compressed into the chaining value (R141, R151). -/
theorem endsWithChain_md5Block {polls : Nat} (enough : Config.latency .md5Block < polls) (bytes : List Byte)
    {s : State} (idle : s.busy = false) :
    EndsWithChain polls (hostWrBlk bytes ++ hostCmd .md5Block ++ [.wait]) s
      (compress (chainOfDig s.dig) (blockOfBytes bytes)) := by
  rw [List.append_assoc]
  have still : (respond (some writeAnswer) (putBlk (blockOfBytes bytes) s)).busy = false := by
    rw [respond_busy, putBlk_busy, idle]
  refine .of_done (runHost_hostWrBlk_blockOfBytes polls bytes idle)
    (endsWithChain_hostCmd_wait enough still fun u t completes dig blk => ?_)
  rw [md5Block_dig completes, chainOfDig_digOfChain, dig, blk, respond_dig, putBlk_dig, respond_blk, putBlk_blk]

/-- Blocks one after another are compressed in order (R151). -/
theorem endsWithChain_blocks {polls : Nat} (enough : Config.latency .md5Block < polls) (blocks : List (List Byte))
    {s : State} (idle : s.busy = false) :
    EndsWithChain polls (blocks.flatMap fun b => hostWrBlk b ++ hostCmd .md5Block ++ [.wait]) s
      ((blocks.map blockOfBytes).foldl compress (chainOfDig s.dig)) := by
  induction blocks generalizing s with
  | nil => exact ⟨[], s, rfl, idle, rfl⟩
  | cons b blocks ih =>
    rw [List.flatMap_cons, List.map_cons, List.foldl_cons]
    exact (endsWithChain_md5Block enough b idle).append fun t idle' chain => chain ▸ ih idle'

/-- Settles O57: MD5_INIT, then every block of the padded message, and RDDIG reads the chaining value they leave. -/
theorem hostSequenceOfMd5GivesTheDigest : Obligations.HostSequenceOfMd5GivesTheDigest := by
  intro s m polls idle enoughInit enoughBlock
  have absorbs : EndsWithChain polls (md5Absorb m) s (md5Chain m) :=
    (endsWithChain_md5Init enoughInit idle).append fun t idle' chain => by
      rw [md5Chain, ← chain]
      exact endsWithChain_blocks enoughBlock (blocksOf (md5Pad m)) idle'
  obtain ⟨values, t, run, idle', chain⟩ := absorbs
  obtain ⟨r, reads⟩ := runHost_hostRdDig polls idle'
  simp only [runDigest, run, reads]
  rw [md5, ← chain, digestBytes_chainOfDig]
  rfl

end Machine
end Sys2Proof
end

section
/-! PROOFS. One edge out of reset: the transfer of the cycle, and the completion if it is due (spec/43_system.md R172;
spec/60_exceptions.md R186; spec/70_reset_and_hazards.md R211, R225). -/

namespace Sys2Proof
namespace Machine

/-! ### The three edges out of reset -/

theorem step_of_inputs {s : State} {p : Pins} {ps : List Pins} (h : s.inputs = p :: ps) :
    step s = clockEdge p { s with inputs := ps } := by
  simp [step, nextPins, popPins, h]

/-- While idle an edge is the transfer of the cycle alone. -/
theorem clockEdge_of_idle (bus : Option Transfer) (s : State) (idle : s.busy = false) :
    clockEdge { rstN := true, bus := bus } s = .next (busCycle bus s) := by
  simp [clockEdge, completionDue, tick_of_idle, idle]

/-- When the command in flight is due, the edge is the transfer and then the completion: no transfer takes the command
away (R186). -/
theorem clockEdge_of_due (bus : Option Transfer) (s : State) {i : Instr} (busy : s.busy = true)
    (pend : s.pendOp = some i) (due : s.cyclesLeft ≤ 1) :
    clockEdge { rstN := true, bus := bus } s = exec i (busCycle bus s) := by
  have pend' : (busCycle bus s).pendOp = some i := by
    obtain ⟨_, _, _, _, _, _, -, h⟩ := busCycle_of_busy bus s busy
    rw [h, pend]
  simp [clockEdge, (completionDue_iff s).mpr ⟨busy, due⟩, complete_of_pendOp pend']

/-- In flight, a cycle on changes the counter and the working registers only (R35). -/
theorem tick_of_busy {s : State} (busy : s.busy = true) :
    ∃ k, tick s = { s with cyclesLeft := s.cyclesLeft - 1, work := k } :=
  ⟨_, if_pos busy⟩

/-- While the command in flight is not due, the edge is the transfer on the state one cycle on. -/
theorem clockEdge_of_not_due (bus : Option Transfer) (s : State) (busy : s.busy = true) (left : 1 < s.cyclesLeft) :
    ∃ k, clockEdge { rstN := true, bus := bus } s =
      .next (busCycle bus { s with cyclesLeft := s.cyclesLeft - 1, work := k }) := by
  obtain ⟨k, hk⟩ := tick_of_busy busy
  exact ⟨k, by simp [clockEdge, completionDue, Nat.not_le.mpr left, hk]⟩

/-- Settles O6: the three edges out of reset. -/
theorem stepIsTransferThenCompletion : Obligations.StepIsTransferThenCompletion := by
  intro s bus ps inputs
  rw [step_of_inputs inputs]
  exact ⟨clockEdge_of_idle bus { s with inputs := ps }, fun i => clockEdge_of_due bus { s with inputs := ps },
    clockEdge_of_not_due bus { s with inputs := ps }⟩

/-! ### How BUSY falls -/

/-- A reset edge was presented: an exhausted list of inputs presents none (log entry 2). -/
theorem inputs_of_nextPins_reset {s : State} (reset : (nextPins s).rstN = false) :
    ∃ bus ps, s.inputs = { rstN := false, bus := bus } :: ps := by
  cases inputs : s.inputs with
  | nil => simp [nextPins, inputs, idlePins] at reset
  | cons p ps =>
    obtain ⟨rstN, bus⟩ := p
    obtain rfl : rstN = false := by simpa [nextPins, inputs] using reset
    exact ⟨bus, ps, rfl⟩

/-- A completion that happens leaves DONE set (R172). -/
theorem done_of_complete {s t : State} (h : complete s = .next t) : t.done = true := by
  cases pend : s.pendOp with
  | none => simp [complete, pend] at h
  | some i =>
    rw [complete_of_pendOp pend] at h
    obtain ⟨code, u, -, rfl⟩ := exec_next_endCommand h
    rfl

/-- Settles O44: an edge that is neither a reset nor a completion keeps BUSY. -/
theorem busyFallsOnlyAtCompletionOrReset : Obligations.BusyFallsOnlyAtCompletionOrReset := by
  intro s t busy hstep fell
  rw [step] at hstep
  rcases clockEdge_cases (nextPins s) (popPins s) with ⟨reset, -⟩ | ⟨-, due, hedge⟩ | ⟨-, -, hedge⟩
  · exact .inr (inputs_of_nextPins_reset reset)
  · rw [hedge] at hstep
    exact .inl ⟨((completionDue_iff s).mp due).2, done_of_complete hstep⟩
  · rw [hedge] at hstep
    injection hstep with hstep
    have kept : t.busy = true := hstep ▸ busCycle_busy_of_busy _ ((tick_busy _).trans busy)
    simp [kept] at fell

/-! ### A step runs the command of a word -/

/-- The word of a command is given to the block as that command (log entry 8). -/
theorem withFetchWord_of_decode {w : Word} {i : Instr} (h : decode w = .ok i) (s : State) :
    s.withFetchWord 32 w.toNat = loadCommand i s := by
  simp [State.withFetchWord, loadWord, (decodeTableWord_eq_some_iff w i).mpr h]

/-- Settles O7: the command the word decodes to stands accepted and due, and no transfer is presented. -/
theorem stepRunsTheDecodedCommand : Obligations.StepRunsTheDecodedCommand := by
  intro s w i h
  rw [withFetchWord_of_decode h]
  refine ⟨rfl, rfl, ?_⟩
  rw [step_of_inputs (p := idlePins) (ps := s.inputs) rfl]
  exact clockEdge_of_due none _ rfl rfl le_rfl

end Machine
end Sys2Proof
end

section
/-! PROOFS. The sequencer: the CMD write with its tests in order, the bookkeeping of a completion, and ZEROIZE
(spec/43_system.md R172, R174, R175). -/

namespace Sys2Proof
namespace Machine

/-! ### The CMD write -/

theorem commandWrite_of_busy {s : State} (busy : s.busy = true) (w : Word) : commandWrite w s = flagOverrun s := by
  simp [commandWrite, busy]

theorem commandWrite_of_legal {s : State} (idle : s.busy = false) {w : Word} {i : Instr} (legal : decode w = .ok i) :
    commandWrite w s = accept i s := by
  simp [commandWrite, idle, legal]

theorem commandWrite_of_illegal {s : State} (idle : s.busy = false) {w : Word} (illegal : ¬ ∃ i, decode w = .ok i) :
    commandWrite w s = report errIllegalCmd s := by
  rcases commandWrite_cases w s with ⟨busy, -⟩ | ⟨-, i, legal, -⟩ | ⟨-, -, h⟩
  · simp [idle] at busy
  · exact absurd ⟨i, legal⟩ illegal
  · exact h

/-- CMD is no data register, so its write is never locked (R55, R58). -/
theorem busTransfer_writeCmd (w : Word) (s : State) :
    busTransfer (writeTransfer 0x00C#12 w) s = respond (some writeAnswer) (commandWrite w s) :=
  busTransfer_writeTransfer (reg := .cmd) rfl rfl w s

/-- Settles O8: the tests of the CMD write by the number of the word, and the transfers to CMD. -/
theorem commandWriteFollowsItsTests : Obligations.CommandWriteFollowsItsTests := by
  intro s w
  obtain ⟨legal_iff, opcode⟩ := wordIsLegalIffReservedZeroAndOpcodeOneToSeven w
  refine ⟨fun busy => commandWrite_of_busy busy w, fun idle tests => ?_, fun idle rsv low high => ?_,
    busTransfer_writeCmd w s, fun t _ _ illegal => (illegalTransferAnswersErrorAndChangesNothing s t).1 illegal⟩
  · exact commandWrite_of_illegal idle (by rw [legal_iff]; omega)
  · obtain ⟨i, legal⟩ := legal_iff.mpr ⟨rsv, low, by omega⟩
    exact ⟨i, _, opcode i legal, commandWrite_of_legal idle legal⟩

/-! ### Completions -/

/-- Every command ends, in every state, by writing the five files and going idle with a code (R172). -/
theorem exec_eq_endCommand (i : Instr) (s : State) : ∃ code fileA fileB fileR dig blk,
    exec i s = .next (endCommand code { s with
      fileA := fileA, fileB := fileB, fileR := fileR, dig := dig, blk := blk }) := by
  cases i <;> exact ⟨_, _, _, _, _, _, rfl⟩

/-- Settles O9: the end of a command, with all but the files as they were. -/
theorem completionBookkeepingOfEveryCommand : Obligations.CompletionBookkeepingOfEveryCommand := by
  intro i s
  obtain ⟨_, _, _, _, _, _, h⟩ := exec_eq_endCommand i s
  exact ⟨_, h, rfl, rfl, rfl, rfl, rfl, rfl, rfl, rfl, rfl, rfl, rfl, rfl⟩

/-- Settles O28: the completion writes the files of the reset state, whose words are zero. -/
theorem zeroizeClearsEveryDataRegister : Obligations.ZeroizeClearsEveryDataRegister := by
  intro s
  obtain ⟨-, -, -, -, -, -, -, files, dig, blk, -⟩ := resetLeavesEveryElementZero
  exact ⟨_, exec_eq .zeroize s, rfl, files, dig, blk⟩

end Machine
end Sys2Proof
end

section
/-! PROOFS. The events the sequencer reports, and the transfer in the completion's cycle (spec/60_exceptions.md R180,
R183, R186). -/

namespace Sys2Proof
namespace Machine

/-! ### The code of a completion -/

/-- Of all commands only the scalar multiplications end with anything but NONE, and they by the low-order check
(R126, R180). -/
theorem exec_reports_none_or_isScalarMul (i : Instr) (s : State) :
    (∃ u, exec i s = .next (endCommand errNone u)) ∨
    ((i = .x25519 ∨ i = .x25519Base) ∧ ∃ x, x < Config.prime ∧ exec i s = .next (scalarMulEnd x s)) := by
  cases i with
  | x25519 => exact .inr ⟨.inl rfl, _, ladder_lt _ _, exec_eq .x25519 s⟩
  | x25519Base => exact .inr ⟨.inr rfl, _, ladder_lt _ _, exec_eq .x25519Base s⟩
  | montMul | fieldRed | md5Init | md5Block | zeroize => exact .inl ⟨_, exec_eq _ s⟩

/-- Settles O10: by the low-order check, ERR is NONE unless LOWCHK was latched and the result is zero. -/
theorem completionErrIsNoneOrInvalidKey : Obligations.CompletionErrIsNoneOrInvalidKey := by
  intro i s t h
  rcases exec_reports_none_or_isScalarMul i s with ⟨u, hu⟩ | ⟨scalar, x, canonical, hx⟩
  · obtain rfl := eq_of_exec_next h hu
    exact .inl rfl
  · obtain ⟨r, e, ht, -, -, rejected, accepted⟩ := exec_writes_scalarMul canonical hx
    obtain rfl := eq_of_exec_next h ht
    by_cases rejects : s.pendLowchk = true ∧ val r = 0
    · exact .inr ⟨rejected rejects, rejects.1, scalar, rejects.2⟩
    · rw [not_and_or, Bool.not_eq_true] at rejects
      exact .inl (accepted rejects)

/-! ### No event stops the block -/

/-- Settles O49: reset and a bus cycle always have a next state, and a completion that is due still has its
command after the transfer of its cycle (R38). -/
theorem noEventStopsTheBlock : Obligations.NoEventStopsTheBlock := by
  intro s h
  rw [step]
  rcases clockEdge_cases (nextPins s) (popPins s) with ⟨-, hedge⟩ | ⟨-, due, hedge⟩ | ⟨-, -, hedge⟩
  · exact ⟨_, hedge⟩
  · obtain ⟨busy, -⟩ := (completionDue_iff _).mp due
    obtain ⟨busy_iff, -, -⟩ := sequencerOk_busCycle (nextPins s).bus (s := popPins s) h
    obtain ⟨i, pend⟩ := Option.ne_none_iff_exists'.mp (busy_iff.mp (busCycle_busy_of_busy _ busy))
    exact ⟨_, hedge.trans ((complete_of_pendOp pend).trans (exec_eq i _))⟩
  · exact ⟨_, hedge⟩

/-! ### The completion's cycle -/

/-- The bus is no concern of a completion: ACCERR, the answer and the ports to come pass through it. -/
theorem exec_of_bus {i : Instr} {s t : State} (h : exec i s = .next t) (accerr : Bool) (resp : Option BusResponse)
    (ps : List Pins) : exec i { s with accerr := accerr, resp := resp, inputs := ps } =
      .next { t with accerr := accerr, resp := resp, inputs := ps } := by
  obtain rfl := eq_of_exec_next h (exec_eq i s)
  cases i <;> rfl

/-- Settles O42: the transfer meets BUSY = 1 and the busy lock, and the completion after it keeps the answer, OVR and
ACCERR, sets DONE, and writes the files as it would without the transfer. -/
theorem transferInTheCompletionCycleSeesTheStateBefore :
    Obligations.TransferInTheCompletionCycleSeesTheStateBefore := by
  intro s i tr ps busy due pend inputs size aligned
  obtain ⟨t, completes, idle, done, cleared, -, -, -, -, ovr, accerr, -, resp, -⟩ :=
    completionBookkeepingOfEveryCommand i (busTransfer tr { s with inputs := ps })
  refine ⟨t, ?_, idle, done, cleared, fun we addr => ?_, fun data => ?_, fun we addr => ?_⟩
  · rw [step_of_inputs inputs, ← completes]
    exact clockEdge_of_due (some tr) { s with inputs := ps } busy pend due
  · have stands : regAt tr.addr = .status ∧ tr.addr.toNat % 4 = 0 := regAt_of_offset (congrArg some addr.symm)
    rw [resp, busTransfer_readControl size stands we rfl]
    exact ⟨_, rfl, (statusWord_busy _).trans busy⟩
  · have lock := (busyLockKeepsEveryDataRegister { s with inputs := ps } tr busy).1 size aligned data
    rw [lock] at completes accerr resp
    obtain ⟨u, hu⟩ : ∃ u, exec i s = .next u := ⟨_, exec_eq i s⟩
    obtain rfl := eq_of_exec_next completes (exec_of_bus hu _ _ _)
    exact ⟨accerr, resp, u, hu, rfl, rfl, rfl, rfl, rfl⟩
  · have stands : regAt tr.addr = .cmd ∧ tr.addr.toNat % 4 = 0 := regAt_of_offset (congrArg some addr.symm)
    rw [ovr, busTransfer_writeControl size stands we rfl, writeReg,
      commandWrite_of_busy (s := { s with inputs := ps }) busy]
    rfl

end Machine
end Sys2Proof
end

section
/-! PROOFS. The interrupt: what raises it, and what clears or masks it (spec/60_exceptions.md R184, R185). -/

namespace Sys2Proof
namespace Machine

/-! ### The interrupt after each operation -/

theorem irq_eq_true_iff (s : State) : irq s = true ↔ s.irqen = true ∧ s.done = true :=
  Bool.and_eq_true_iff

@[simp] theorem irq_respond (r : Option BusResponse) (s : State) : irq (respond r s) = irq s := rfl

@[simp] theorem irq_flagAccessError (s : State) : irq (flagAccessError s) = irq s := rfl

@[simp] theorem irq_flagOverrun (s : State) : irq (flagOverrun s) = irq s := rfl

@[simp] theorem irq_tick (s : State) : irq (tick s) = irq s := by
  rw [irq, tick_irqen, tick_done, irq]

@[simp] theorem irq_writeCtrl (w : Word) (s : State) : irq (writeCtrl w s) = (w.getLsbD 0 && s.done) := rfl

/-- A write of 1 to STATUS.DONE is what clears the interrupt there (R27). -/
@[simp] theorem irq_writeStatus (w : Word) (s : State) : irq (writeStatus w s) = (irq s && !w.getLsbD 1) :=
  (Bool.and_assoc _ _ _).symm

/-- The accept of a command clears DONE (R171). -/
@[simp] theorem irq_accept (i : Instr) (s : State) : irq (accept i s) = false :=
  Bool.and_false _

@[simp] theorem irq_resetEdge (bus : Option Transfer) (s : State) : irq (resetEdge bus s) = false := rfl

/-! ### What clears and masks it -/

/-- CTRL is no data register, so its write is never locked (R55, R58). -/
theorem busTransfer_writeCtrl (w : Word) (s : State) :
    busTransfer (writeTransfer 0x004#12 w) s = respond (some writeAnswer) (writeCtrl w s) :=
  busTransfer_writeTransfer (reg := .ctrl) rfl rfl w s

theorem step_of_reset {s : State} {bus : Option Transfer} {ps : List Pins}
    (inputs : s.inputs = { rstN := false, bus := bus } :: ps) :
    step s = .next (resetEdge bus { s with inputs := ps }) :=
  step_of_inputs inputs

/-- Settles O40: the interrupt after each of the transfers, and after a reset edge. -/
theorem irqIsEnableAndDone : Obligations.IrqIsEnableAndDone := by
  refine fun s => ⟨irq_eq_true_iff s, fun w one => ?_, fun i idle => ?_, fun bus ps t inputs hstep => ?_,
    fun w zero => ?_⟩
  · rw [busTransfer_writeStatus, irq_respond, irq_writeStatus, one, Bool.not_true, Bool.and_false]
  · rw [busTransfer_writeCmd, commandWrite_of_legal idle (decode_encode i), irq_respond, irq_accept]
  · obtain rfl := Host.Outcome.next.inj (hstep.symm.trans (step_of_reset inputs))
    exact irq_resetEdge _ _
  · rw [busTransfer_writeCtrl, irq_respond, irq_writeCtrl, zero, Bool.false_and]
    exact ⟨rfl, rfl⟩

/-! ### What raises it -/

/-- Of all writes, only the rejection of an illegal word and a write of CTRL raise the interrupt (R185). -/
theorem writeReg_raises_irq {reg : Reg} {w : Word} {s : State} (low : ¬ irq s = true)
    (high : irq (writeReg reg w s) = true) :
    (s.busy = false ∧ reg = .cmd ∧ ∀ i, decode w ≠ .ok i) ∨
    (reg = .ctrl ∧ w.getLsbD 0 = true ∧ s.done = true) := by
  cases reg with
  | ctrl => exact .inr ⟨rfl, Bool.and_eq_true_iff.mp high⟩
  | status =>
    rw [writeReg, irq_writeStatus, Bool.and_eq_true_iff] at high
    exact absurd high.1 low
  | cmd =>
    rw [writeReg] at high
    rcases commandWrite_cases w s with ⟨-, h⟩ | ⟨-, i, -, h⟩ | ⟨idle, ⟨e, illegal⟩, -⟩
    · rw [h, irq_flagOverrun] at high
      exact absurd high low
    · simp [h] at high
    · exact .inl ⟨idle, rfl, by simp [illegal]⟩
  | id | a | b | r | dig | blk | reserved => exact (low high).elim

/-- A transfer that raises the interrupt is a legal write, and its register's own effect raises it (R185). -/
theorem busTransfer_raises_irq {tr : Transfer} {s : State} (low : ¬ irq s = true)
    (high : irq (busTransfer tr s) = true) :
    tr.legal = true ∧ tr.we = true ∧ irq (writeReg (regAt tr.addr) tr.wdata s) = true := by
  cases legal : tr.legal with
  | false =>
    rw [busTransfer_illegal legal, irq_respond] at high
    exact absurd high low
  | true =>
    cases we : tr.we with
    | false =>
      rw [busTransfer_read legal we rfl, apply_ite irq, irq_respond, irq_respond, irq_flagAccessError, ite_self] at high
      exact absurd high low
    | true =>
      rw [busTransfer_write legal we rfl, irq_respond] at high
      split at high
      next =>
        rw [irq_flagAccessError] at high
        exact absurd high low
      next => exact ⟨rfl, rfl, high⟩

/-- A transfer was presented out of reset: an exhausted list of inputs presents none (log entry 2). -/
theorem inputs_of_nextPins_bus {s : State} {tr : Transfer} (rstN : (nextPins s).rstN = true)
    (bus : (nextPins s).bus = some tr) : ∃ ps, s.inputs = { rstN := true, bus := some tr } :: ps := by
  cases inputs : s.inputs with
  | nil => simp [nextPins, inputs, idlePins] at bus
  | cons p ps =>
    have next : nextPins s = p := by simp [nextPins, inputs]
    rw [next] at rstN bus
    exact ⟨ps, by rw [← rstN, ← bus]⟩

/-- Settles O41: a reset edge leaves the interrupt low, and an edge without a completion raises it by its transfer
only. -/
theorem irqRisesOnlyOnItsThreeCauses : Obligations.IrqRisesOnlyOnItsThreeCauses := by
  intro s t low hstep high
  refine ⟨((irq_eq_true_iff t).mp high).1, ?_⟩
  rw [step] at hstep
  rcases clockEdge_cases (nextPins s) (popPins s) with ⟨-, hedge⟩ | ⟨-, due, -⟩ | ⟨rstN, -, hedge⟩
  · obtain rfl := Host.Outcome.next.inj (hstep.symm.trans hedge)
    exact absurd high (ne_true_of_eq_false (irq_resetEdge _ _))
  · exact .inl ((completionDue_iff s).mp due)
  · obtain rfl := Host.Outcome.next.inj (hstep.symm.trans hedge)
    have low' : ¬ irq (tick (popPins s)) = true := ne_true_of_eq_false ((irq_tick _).trans low)
    cases bus : (nextPins s).bus with
    | none =>
      rw [bus, busCycle, irq_respond] at high
      exact absurd high low'
    | some tr =>
      rw [bus, busCycle] at high
      obtain ⟨ps, inputs⟩ := inputs_of_nextPins_bus rstN bus
      obtain ⟨legal, we, raised⟩ := busTransfer_raises_irq low' high
      obtain ⟨size, aligned⟩ := (Transfer.legal_iff tr).mp legal
      refine .inr ⟨tr, ps, inputs, we, size, ?_⟩
      rcases writeReg_raises_irq low' raised with ⟨idle, cmd, illegal⟩ | ⟨ctrl, enable, done⟩
      · exact .inl ⟨by rwa [tick_busy] at idle, regAt_inj (off := 0x00C#12) rfl aligned nofun cmd, illegal⟩
      · exact .inr ⟨regAt_inj (off := 0x004#12) rfl aligned nofun ctrl, enable, by rwa [tick_done] at done⟩

end Machine
end Sys2Proof
end

section
/-! PROOFS. Reset edges, and what is latched at the accept of a command (spec/70_reset_and_hazards.md R210, R211,
R221). -/

namespace Sys2Proof
namespace Machine

/-- Settles O5: the reset edge does not look at the state but for the ports to come. -/
theorem resetEdgeOverridesTransferAndCompletion : Obligations.ResetEdgeOverridesTransferAndCompletion := by
  intro s bus ps inputs
  refine ⟨_, step_of_reset inputs, rfl, ?_, fun presented => ?_⟩
  · rintro rfl
    rfl
  · obtain ⟨tr, rfl⟩ := Option.ne_none_iff_exists'.mp presented
    rfl

/-- A completion neither reads nor writes CTRL (R171, R221). -/
theorem exec_ctrl {i : Instr} {s t : State} (h : exec i s = .next t) (irqen lowchk : Bool) :
    exec i { s with irqen := irqen, lowchk := lowchk } = .next { t with irqen := irqen, lowchk := lowchk } := by
  obtain rfl := eq_of_exec_next h (exec_eq i s)
  cases i <;> rfl

/-- Settles O43: the accept latches LOWCHK, a write of CTRL leaves the latch alone, and the completion uses the latch
only. -/
theorem lowchkIsLatchedAtAccept : Obligations.LowchkIsLatchedAtAccept := by
  refine ⟨fun s i idle => ?_, fun s w => ?_, fun s t i irqen lowchk h => exec_ctrl h irqen lowchk⟩
  · rw [busTransfer_writeCmd, commandWrite_of_legal idle (decode_encode i)]
    rfl
  · rw [busTransfer_writeCtrl]
    exact ⟨rfl, rfl⟩

end Machine
end Sys2Proof
end

section
/-! PROOFS. Time is independent of data: two states of the same control state, side by side
(spec/70_reset_and_hazards.md R226). -/

namespace Sys2Proof
namespace Machine

/-- A completion that is due with no command in flight is the machine's one fault (log entry 7). -/
theorem complete_of_none {s : State} (h : s.pendOp = none) : complete s = .fault .noCommandInFlight := by
  simp [complete, h]

section

variable {s s' : State}

theorem locked_eq_of_sameTiming (h : SameTiming s s') (reg : Reg) : locked s reg = locked s' reg := by
  obtain ⟨busy, -⟩ := h
  rw [locked, locked, busy]

theorem completionDue_eq_of_sameTiming (h : SameTiming s s') : completionDue s = completionDue s' := by
  obtain ⟨busy, -, -, left, -⟩ := h
  rw [completionDue, completionDue, busy, left]

/-- The tests of a CMD write look at BUSY and the word only (R174). -/
theorem commandWrite_sameTiming (w : Word) (h : SameTiming s s') :
    SameTiming (commandWrite w s) (commandWrite w s') := by
  obtain ⟨busy, done, pend, left, inputs⟩ := h
  rw [commandWrite, commandWrite, ← busy]
  split
  next => exact ⟨busy, done, pend, left, inputs⟩
  next =>
    split
    next => exact ⟨rfl, rfl, rfl, rfl, inputs⟩
    next => exact ⟨busy, rfl, pend, left, inputs⟩

/-- Only a write of CMD or of STATUS acts on the control state at all. -/
theorem writeReg_sameTiming (reg : Reg) (w : Word) (h : SameTiming s s') :
    SameTiming (writeReg reg w s) (writeReg reg w s') := by
  cases reg with
  | cmd => exact commandWrite_sameTiming w h
  | status =>
    obtain ⟨busy, done, pend, left, inputs⟩ := h
    exact ⟨busy, congrArg (· && !w.getLsbD 1) done, pend, left, inputs⟩
  | id | ctrl | a | b | r | dig | blk | reserved => exact h

/-- Legality and the register of a transfer come from the transfer, the busy lock from BUSY (R52). -/
theorem busTransfer_sameTiming (tr : Transfer) (h : SameTiming s s') :
    SameTiming (busTransfer tr s) (busTransfer tr s') := by
  cases legal : tr.legal with
  | false =>
    rw [busTransfer_illegal legal, busTransfer_illegal legal]
    exact h
  | true =>
    cases we : tr.we with
    | false =>
      rw [busTransfer_read legal we rfl, busTransfer_read legal we rfl, locked_eq_of_sameTiming h]
      split <;> exact h
    | true =>
      rw [busTransfer_write legal we rfl, busTransfer_write legal we rfl, locked_eq_of_sameTiming h]
      cases locked s' (regAt tr.addr) with
      | true => exact h
      | false => exact writeReg_sameTiming _ _ h

theorem busCycle_sameTiming (bus : Option Transfer) (h : SameTiming s s') :
    SameTiming (busCycle bus s) (busCycle bus s') := by
  cases bus with
  | none => exact h
  | some tr => exact busTransfer_sameTiming tr h

theorem tick_sameTiming (h : SameTiming s s') : SameTiming (tick s) (tick s') := by
  obtain ⟨busy, done, pend, left, inputs⟩ := h
  simp only [SameTiming, tick_busy, tick_done, tick_pendOp, tick_cyclesLeft, tick_inputs, busy, done, pend, left,
    inputs, and_self]

/-- Whatever the command and its result, a completion leaves one and the same control state (R172). -/
theorem complete_alike_sameTiming (h : SameTiming s s') : OutcomesAlike SameTiming (complete s) (complete s') := by
  obtain ⟨-, -, same, -, inputs⟩ := h
  cases pend : s.pendOp with
  | none => exact .inr ⟨_, complete_of_none pend, complete_of_none (same.symm.trans pend)⟩
  | some i =>
    rw [complete_of_pendOp pend, complete_of_pendOp (same.symm.trans pend)]
    obtain ⟨_, _, _, _, _, _, ht⟩ := exec_eq_endCommand i s
    obtain ⟨_, _, _, _, _, _, ht'⟩ := exec_eq_endCommand i s'
    exact .inl ⟨_, _, ht, ht', rfl, rfl, rfl, rfl, inputs⟩

/-- Two blocks of the same control state reset, complete or go on at the same edges. -/
theorem clockEdge_alike_sameTiming (p : Pins) (h : SameTiming s s') :
    OutcomesAlike SameTiming (clockEdge p s) (clockEdge p s') := by
  rw [clockEdge, clockEdge, completionDue_eq_of_sameTiming h]
  split
  next =>
    split
    next => exact complete_alike_sameTiming (busCycle_sameTiming p.bus h)
    next => exact .inl ⟨_, _, rfl, rfl, busCycle_sameTiming p.bus (tick_sameTiming h)⟩
  next =>
    obtain ⟨-, -, -, -, inputs⟩ := h
    exact .inl ⟨_, _, rfl, rfl, rfl, rfl, rfl, rfl, inputs⟩

theorem step_alike_sameTiming (h : SameTiming s s') : OutcomesAlike SameTiming (step s) (step s') := by
  obtain ⟨busy, done, pend, left, inputs⟩ := h
  have next : nextPins s = nextPins s' := by rw [nextPins, nextPins, inputs]
  rw [step, step, next]
  exact clockEdge_alike_sameTiming _ ⟨busy, done, pend, left, congrArg List.tail inputs⟩

end

/-- Settles O52: one step keeps two states of the same control state so, hence every run does. -/
theorem timingIsIndependentOfData : Obligations.TimingIsIndependentOfData :=
  fun n _ _ h => core_run_alike (fun _ _ => step_alike_sameTiming) n h

end Machine
end Sys2Proof
end

section
/-! PROOFS. A command from its accept to its completion, and the host that waits for it (spec/70_reset_and_hazards.md
R225, R227; spec/43_system.md R171, R172). -/

namespace Sys2Proof
namespace Machine

/-! ### What a command in flight keeps -/

/-- What stands still while a command is in flight: all but CTRL, the flags DONE, OVR and ACCERR, the counter, the
working registers, and the bus. -/
def flightCore (s : State) : State :=
  { s with
    irqen := false, lowchk := false, done := false, ovr := false, accerr := false
    cyclesLeft := 0, work := Working.zero, resp := none, inputs := [] }

theorem busy_of_flightCore_eq {s t : State} (h : flightCore t = flightCore s) : t.busy = s.busy :=
  (congrArg State.busy h :)

theorem pendOp_of_flightCore_eq {s t : State} (h : flightCore t = flightCore s) : t.pendOp = s.pendOp :=
  (congrArg State.pendOp h :)

/-- The host cannot reach it: the busy lock and the dropped CMD writes stand before it (R58, R173). -/
theorem flightCore_busCycle (bus : Option Transfer) {s : State} (busy : s.busy = true) :
    flightCore (busCycle bus s) = flightCore s := by
  obtain ⟨_, _, _, _, _, _, -, h⟩ := busCycle_of_busy bus s busy
  rw [h]
  rfl

/-- Every command completes, in every state (R172). -/
theorem exec_goes_on (i : Instr) (s : State) : ∃ t, exec i s = .next t :=
  ⟨_, exec_eq i s⟩

/-- A completion looks at nothing else: its files and its code are those of the completion without the rest. -/
theorem flightCore_of_exec {i : Instr} {s t u : State} (h : exec i s = .next t)
    (hu : exec i (flightCore s) = .next u) : flightCore t = flightCore u := by
  obtain rfl := eq_of_exec_next h (exec_eq i s)
  obtain rfl := eq_of_exec_next hu (exec_eq i _)
  cases i <;> rfl

theorem flightCore_of_exec_congr {i : Instr} {s s' t t' : State} (same : flightCore s = flightCore s')
    (h : exec i s = .next t) (h' : exec i s' = .next t') : flightCore t = flightCore t' := by
  obtain ⟨u, hu⟩ := exec_goes_on i (flightCore s')
  rw [flightCore_of_exec h (same ▸ hu), flightCore_of_exec h' hu]

/-! ### Cycles without a reset -/

/-- No reset is presented in the first `n` cycles; a list that ends before presents none either (log entry 2). -/
def NoResetFor (n : Nat) (ps : List Pins) : Prop := ∀ p ∈ ps.take n, p.rstN = true

theorem NoResetFor.drop {k n : Nat} {ps : List Pins} (h : NoResetFor (k + n) ps) : NoResetFor n (ps.drop k) := by
  intro p hp
  rw [List.take_drop] at hp
  exact h p (List.mem_of_mem_drop hp)

theorem NoResetFor.of_le {m n : Nat} {ps : List Pins} (h : NoResetFor n ps) (le : m ≤ n) : NoResetFor m ps :=
  fun p hp => h p (List.take_subset_take_left ps le hp)

theorem NoResetFor.exists_nextPins_eq {s : State} {n : Nat} (h : NoResetFor (n + 1) s.inputs) :
    ∃ bus, nextPins s = { rstN := true, bus := bus } := by
  cases inputs : s.inputs with
  | nil => exact ⟨none, by simp [nextPins, inputs, idlePins]⟩
  | cons p ps => exact ⟨p.bus, by simp [nextPins, inputs, ← h p (by simp [inputs])]⟩

/-! ### Edges of a command in flight -/

theorem clockEdge_in_flight (bus : Option Transfer) (s : State) (busy : s.busy = true) (left : 1 < s.cyclesLeft) :
    ∃ t, clockEdge { rstN := true, bus := bus } s = .next t ∧ flightCore t = flightCore s ∧
      (t.done = true → s.done = true) ∧ t.cyclesLeft + 1 = s.cyclesLeft ∧ t.inputs = s.inputs := by
  obtain ⟨k, hedge⟩ := clockEdge_of_not_due bus s busy left
  obtain ⟨_, _, _, _, _, _, done, hbus⟩ :=
    busCycle_of_busy bus { s with cyclesLeft := s.cyclesLeft - 1, work := k } busy
  rw [hbus] at hedge
  exact ⟨_, hedge, rfl, done, Nat.sub_add_cancel left.le, rfl⟩

/-- A command in flight that is not due stays in flight, with one cycle less to go (R225). -/
theorem step_of_not_due {s : State} {n : Nat} (busy : s.busy = true) (left : 1 < s.cyclesLeft)
    (noReset : NoResetFor (n + 1) s.inputs) :
    ∃ t, step s = .next t ∧ flightCore t = flightCore s ∧ (t.done = true → s.done = true) ∧
      t.cyclesLeft + 1 = s.cyclesLeft ∧ t.inputs = s.inputs.drop 1 := by
  obtain ⟨bus, next⟩ := noReset.exists_nextPins_eq
  obtain ⟨t, hedge, kept, done, count, inputs⟩ := clockEdge_in_flight bus (popPins s) busy left
  exact ⟨t, by rw [step, next, hedge], kept, done, count, inputs.trans List.drop_one.symm⟩

/-- The edge at which the command in flight is due completes it, whatever transfer it finds (R172, R186). -/
theorem step_of_due {s : State} {i : Instr} {n : Nat} (busy : s.busy = true) (pend : s.pendOp = some i)
    (due : s.cyclesLeft ≤ 1) (noReset : NoResetFor (n + 1) s.inputs) :
    ∃ s', flightCore s' = flightCore s ∧ step s = exec i s' := by
  obtain ⟨bus, next⟩ := noReset.exists_nextPins_eq
  have hedge := clockEdge_of_due bus (popPins s) busy pend due
  exact ⟨_, flightCore_busCycle bus (s := popPins s) busy, by rw [step, next, hedge]⟩

/-! ### Whole runs -/

/-- A run that goes on for `n` edges continues from the state they lead to. -/
theorem run_add_of_next {M : Host.Core} {s t : M.State} {n : Nat} (h : M.run n s = .next t) (m : Nat) :
    M.run (n + m) s = M.run m t := by
  induction n generalizing s with
  | zero =>
    obtain rfl : s = t := Host.Outcome.next.inj h
    rw [Nat.zero_add]
  | succ n ih =>
    rw [Nat.succ_add, Host.Core.run]
    rw [Host.Core.run] at h
    cases hstep : M.step s with
    | next u =>
      rw [hstep] at h
      exact ih h
    | fault | refused =>
      rw [hstep] at h
      cases h

/-- Until it is due a command stays in flight, with one cycle less to go at each edge. -/
theorem core_run_in_flight (n : Nat) {s : State} (busy : s.busy = true) (left : n < s.cyclesLeft)
    (noReset : NoResetFor n s.inputs) :
    ∃ t, core.run n s = .next t ∧ flightCore t = flightCore s ∧ (t.done = true → s.done = true) ∧
      t.cyclesLeft + n = s.cyclesLeft ∧ t.inputs = s.inputs.drop n := by
  induction n generalizing s with
  | zero => exact ⟨s, rfl, rfl, id, rfl, rfl⟩
  | succ n ih =>
    obtain ⟨t, hstep, kept, done, count, inputs⟩ := step_of_not_due busy (by omega) noReset
    have noReset' : NoResetFor n t.inputs := inputs ▸ NoResetFor.drop (Nat.add_comm n 1 ▸ noReset)
    obtain ⟨u, hrun, kept', done', count', inputs'⟩ :=
      ih ((busy_of_flightCore_eq kept).trans busy) (by omega) noReset'
    refine ⟨u, (core_run_of_next hstep n).trans hrun, kept'.trans kept, done ∘ done', by omega, ?_⟩
    rw [inputs', inputs, List.drop_drop, Nat.add_comm]

/-- A command in flight completes exactly as many edges later as it has cycles to go, on what stood still (R225). -/
theorem core_run_completes {n : Nat} {s : State} {i : Instr} (busy : s.busy = true) (pend : s.pendOp = some i)
    (left : s.cyclesLeft = n + 1) (noReset : NoResetFor (n + 1) s.inputs) :
    ∃ s', flightCore s' = flightCore s ∧ core.run (n + 1) s = exec i s' := by
  obtain ⟨v, hrun, kept, -, count, inputs⟩ := core_run_in_flight n busy (by omega) (noReset.of_le n.le_succ)
  obtain ⟨s', kept', hstep⟩ := step_of_due ((busy_of_flightCore_eq kept).trans busy)
    ((pendOp_of_flightCore_eq kept).trans pend) (by omega) (inputs ▸ noReset.drop)
  obtain ⟨t, ht⟩ := exec_goes_on i s'
  refine ⟨s', kept'.trans kept, (run_add_of_next (M := core) hrun 1).trans ?_⟩
  exact (core_run_of_next (hstep.trans ht) 0).trans ht.symm

/-- An idle block accepts the command of a CMD write at its edge, and has LAT_op cycles to go (R171, R225). -/
theorem step_of_accept {s : State} {i : Instr} {w : Word} {ps : List Pins} (idle : s.busy = false)
    (legal : decode w = .ok i) (inputs : s.inputs = writePins 0x00C#12 w :: ps) :
    ∃ t, step s = .next t ∧ flightCore t = flightCore (accept i s) ∧ t.done = false ∧
      t.cyclesLeft = Config.latency i ∧ t.inputs = ps := by
  have accepts : step s = .next (respond (some writeAnswer) (commandWrite w { s with inputs := ps })) := by
    rw [step_of_inputs inputs, ← busTransfer_writeCmd]
    exact clockEdge_of_idle (some _) { s with inputs := ps } idle
  rw [commandWrite_of_legal (s := { s with inputs := ps }) idle legal] at accepts
  exact ⟨_, accepts, rfl, rfl, rfl, rfl⟩

/-- Settles O50: after the accept the counter stands at the latency; until it runs out the command is in flight, and
the completion finds what stood at the accept. -/
theorem commandCompletesExactlyItsLatencyAfterAccept : Obligations.CommandCompletesExactlyItsLatencyAfterAccept := by
  intro s i w ps idle legal inputs noReset
  obtain ⟨v, accepts, kept, notDone, left, rfl⟩ := step_of_accept idle legal inputs
  have busy : v.busy = true := busy_of_flightCore_eq kept
  have pend : v.pendOp = some i := pendOp_of_flightCore_eq kept
  refine ⟨Nat.succ_pos _, fun k hk => ?_, ?_⟩
  · obtain ⟨t, hrun, kept', done, -⟩ := core_run_in_flight k busy (left ▸ hk) (NoResetFor.of_le noReset hk.le)
    refine ⟨t, ?_, (busy_of_flightCore_eq kept').trans busy, by simpa [notDone] using done⟩
    rw [Nat.add_comm]
    exact (core_run_of_next accepts k).trans hrun
  · obtain ⟨s', kept', hrun⟩ := core_run_completes busy pend left noReset
    obtain ⟨t, ht, idle', done', pend', -⟩ := completionBookkeepingOfEveryCommand i s'
    obtain ⟨u, hu⟩ := exec_goes_on i (accept i s)
    have result := flightCore_of_exec_congr (kept'.trans kept) ht hu
    refine ⟨t, u, ?_, hu, idle', done', pend', (congrArg State.err result :), (congrArg State.fileA result :),
      (congrArg State.fileB result :), (congrArg State.fileR result :), (congrArg State.dig result :),
      (congrArg State.blk result :)⟩
    rw [Nat.add_comm]
    exact (core_run_of_next accepts _).trans (hrun.trans ht)

/-! ### The host's WAIT -/

/-- Settles O51: in flight, WAIT ends one poll after the completion's; on a block that is done, at its first poll. -/
theorem waitEndsWithinTheCyclesLeft : Obligations.WaitEndsWithinTheCyclesLeft := by
  intro s ok event
  obtain ⟨busy_iff, inFlight, -⟩ := ok
  cases busy : s.busy with
  | true =>
    obtain ⟨i, pend⟩ := Option.ne_none_iff_exists'.mp (busy_iff.mp busy)
    obtain ⟨notDone, -⟩ := inFlight busy
    obtain ⟨left, work, resp, t, completes, waits⟩ := runWait_of_busy s.cyclesLeft s i busy notDone pend (Nat.le_succ _)
    obtain ⟨u, hu, idle, done, -⟩ := exec_idle_done i { s with cyclesLeft := left, work := work, resp := resp }
    obtain rfl := eq_of_exec_next completes hu
    exact ⟨_, _, waits, (statusWord_done t).trans done, idle, done⟩
  | false =>
    have done : s.done = true := by simpa [busy] using event
    exact ⟨_, _, runWait_of_done (s.cyclesLeft + 1) s busy done, (statusWord_done s).trans done, busy, done⟩

end Machine
end Sys2Proof
end
